-- ==== Sys2Proof/Word.lean ====
section
/-! DEFINITION. The words of the part's byte layouts: 8-bit bytes, 16-bit values and 7-bit two-wire addresses (00_scope, Conventions). -/

namespace Sys2Proof

/-- A byte on a two-wire bus or in a byte layout. -/
abbrev Byte := BitVec 8

/-- A 16-bit value of the layouts: indices, window bounds, sequences, the generation. -/
abbrev Word16 := BitVec 16

/-- A 7-bit two-wire address, 0x00..0x7F. -/
abbrev Addr7 := BitVec 7

end Sys2Proof
end

