-- ==== Sys2Proof/Syntax.lean ====
section
/-! DEFINITION. The commands of the block: one constructor of `Instr` for each row of spec/opcode_table.json, with the operands
that the row's rule names. A command is an event at one of the part's lines, at one of its timers, or the carrying out of one
management frame. -/

namespace Sys2Proof

/-- The two upstream ports. -/
inductive Port where
  | A
  | B
  deriving DecidableEq, Repr

/-- The downstream segments D0..D3. -/
abbrev Seg := Fin 4

/-- An acknowledgement bit: a low level is ACK, a released level is NAK (R27). -/
inductive Ack where
  | ack
  | nak
  deriving DecidableEq, Repr

/-- The level that the part reads on a line it does not drive. -/
inductive Line where
  | high
  | low
  deriving DecidableEq, Repr

/-- The 13 bytes of an entry image as they are sent: five bytes, then four window bounds of two bytes each, high byte first (R185). -/
structure EntryImage where
  flags : Byte
  up : Byte
  segWidth : Byte
  down : Byte
  limit : Byte
  readLow : Word16
  readHigh : Word16
  writeLow : Word16
  writeHigh : Word16
  deriving DecidableEq, Repr

/-- What the frame of one management command carries between its address byte and its check byte: the command and its payload
values as sent, in range or not (R153, R184). -/
inductive Command where
  | selectView (view arg offset : Byte)
  | clearError
  | setCheckMode (mode : Byte)
  | setHoldLimit (limit : Byte)
  | configureSegment (seg speed stall enable : Byte)
  | recoverSegment (seg : Byte)
  | leaseSegment (seg : Byte) (duration : Word16)
  | releaseLease (seg : Byte)
  | acknowledgeLog (sequence : Word16)
  | clearCounters (entry : Byte)
  | invalidateCursor (entry : Byte)
  | setAttentionMask (mask : Byte)
  | stageEntry (entry : Byte) (mask : Word16) (image : EntryImage)
  | revertStaging
  | discardStaging
  | commit
  | softReset
  deriving DecidableEq, Repr

/-- The commands of the block. `ma1`/`ma0` are strap levels (true = high) and `sclA`/`sclB` the levels of the upstream clocks at
a release (R24, R37). An operand `sda : Line` is the level at which the segment controller finds the segment's SDA if the event
makes it drive a START or a repeated START (R90); where no START follows, it has no effect (log 4). An operand `eighth` says
whether the controller has clocked the eighth bit of the byte that port `p` is delivering when a condition or a port reset cuts it off, which
decides whether a view byte counts (R35, R151); elsewhere it has no effect, and a row that does not name it says no (log 25). The
operand `ninth` says whether the controller clocks the ninth bit of the address, its ACK, before anything else reaches the access: the clock hold and
the fetch of byte 0 follow that bit (R28, R54); it matters for the ACK of a read only, and a row that does not name it says yes (log 16). A management
command's row is the carrying out of one complete and good frame of port `p` (log 5). -/
inductive Instr where
  | powerOn (ma1 ma0 : Bool) (sclA sclB : Line)
  | resetNLow
  | resetNRelease (ma1 ma0 : Bool) (sclA sclB : Line)
  | upstreamStart (p : Port) (sda : Line) (eighth : Bool := false)
  | repeatedStart (p : Port) (sda : Line) (eighth : Bool := false)
  | stop (p : Port) (sda : Line) (eighth : Bool := false)
  | addressByte (p : Port) (b : Byte) (sda : Line)
  | frameByte (p : Port) (b : Byte)
  | writeIndexByte (p : Port) (b : Byte)
  | writeDataByte (p : Port) (b : Byte)
  | targetAddressAnswer (d : Seg) (answer : Ack) (ninth : Bool := true)
  | indexByteAnswer (d : Seg) (answer : Ack)
  | dataByteAnswer (d : Seg) (answer : Ack)
  | fetchedByte (d : Seg) (b : Byte)
  | readByteAck (p : Port)
  | readByteNak (p : Port)
  | fillerByteAnswer (p : Port) (answer : Ack)
  | viewByteAnswer (p : Port) (answer : Ack)
  | upstreamBusTimeout (p : Port) (eighth : Bool := false)
  | closeEnd (d : Seg) (sda : Line)
  | stallTimeout (d : Seg)
  | recoveryEnd (d : Seg) (final : Line) (sda : Line)
  | openingBusClearEnd (d : Seg) (final : Line) (sda : Line)
  | holdLimitExpiry (p : Port)
  | leaseExpiry (d : Seg) (sda : Line)
  | ownershipIdleTimeout
  | commitCompletion
  | selectView (p : Port) (view arg offset : Byte)
  | clearError (p : Port)
  | setCheckMode (p : Port) (mode : Byte)
  | setHoldLimit (p : Port) (limit : Byte)
  | configureSegment (p : Port) (seg speed stall enable : Byte)
  | recoverSegment (p : Port) (seg : Byte)
  | leaseSegment (p : Port) (seg : Byte) (duration : Word16)
  | releaseLease (p : Port) (seg : Byte) (sda : Line)
  | acknowledgeLog (p : Port) (sequence : Word16)
  | clearCounters (p : Port) (entry : Byte)
  | invalidateCursor (p : Port) (entry : Byte)
  | setAttentionMask (p : Port) (mask : Byte)
  | stageEntry (p : Port) (entry : Byte) (mask : Word16) (image : EntryImage)
  | revertStaging (p : Port)
  | discardStaging (p : Port)
  | commit (p : Port)
  | softReset (p : Port)
  | nakOfByteEnd (d : Seg) (sda : Line)
  deriving DecidableEq, Repr

end Sys2Proof
end

