-- ==== Sys2Proof/Config.lean ====
section
/-! DEFINITION. What is fixed for the part (sizes and bounds the manual names) and the free value: a constant without a body, which no proof
can see into, for what the manual leaves open. -/

namespace Sys2Proof

/-- The violation log holds at most 16 records (R122). -/
abbrev Config.logCapacity : Nat := 16

/-- The greatest value of the 16-bit saturating counts: entry counters (R22) and dropped count (R122). -/
abbrev Config.countTop : Nat := 65535

/-- The greatest value of the 8-bit saturating counts: failure count (R136) and data byte count (R42). -/
abbrev Config.byteTop : Nat := 255

/-- The count in ms at which the ownership idle timer expires (R171, R174). -/
abbrev Config.ownershipIdle : Nat := 500

/-- The hold limit of both ports after power-on, in ms (R108). -/
abbrev Config.defaultHoldLimit : Nat := 10

/-- Free value (R128): which order the log takes records in that one event hands to it together. -/
opaque Config.recordOrder : Nat → Nat

end Sys2Proof
end

