-- ==== Sys2Proof/WellFormed.lean ====
section
/-! DEFINITION. Which commands are well formed. Every operand's type already confines it to what its layout can carry: a port is
A or B, a segment number of a line event is 0..3, a payload item is the byte or two bytes sent, and an out-of-range payload
value is no ill-formed command but one that ends INVALID (R153). So there is no check that a term of `Instr` could fail, and
each arm is `true`. -/

namespace Sys2Proof

/-- Well-formedness of a command: one arm for each constructor. -/
def Instr.wellFormed : Instr → Bool
  | .powerOn _ _ _ _ => true
  | .resetNLow => true
  | .resetNRelease _ _ _ _ => true
  | .upstreamStart _ _ _ => true
  | .repeatedStart _ _ _ => true
  | .stop _ _ _ => true
  | .addressByte _ _ _ => true
  | .frameByte _ _ => true
  | .writeIndexByte _ _ => true
  | .writeDataByte _ _ => true
  | .targetAddressAnswer _ _ _ => true
  | .indexByteAnswer _ _ => true
  | .dataByteAnswer _ _ => true
  | .fetchedByte _ _ => true
  | .readByteAck _ => true
  | .readByteNak _ => true
  | .fillerByteAnswer _ _ => true
  | .viewByteAnswer _ _ => true
  | .upstreamBusTimeout _ _ => true
  | .closeEnd _ _ => true
  | .stallTimeout _ => true
  | .recoveryEnd _ _ _ => true
  | .openingBusClearEnd _ _ _ => true
  | .holdLimitExpiry _ => true
  | .leaseExpiry _ _ => true
  | .ownershipIdleTimeout => true
  | .commitCompletion => true
  | .selectView _ _ _ _ => true
  | .clearError _ => true
  | .setCheckMode _ _ => true
  | .setHoldLimit _ _ => true
  | .configureSegment _ _ _ _ _ => true
  | .recoverSegment _ _ => true
  | .leaseSegment _ _ _ => true
  | .releaseLease _ _ _ => true
  | .acknowledgeLog _ _ => true
  | .clearCounters _ _ => true
  | .invalidateCursor _ _ => true
  | .setAttentionMask _ _ => true
  | .stageEntry _ _ _ _ => true
  | .revertStaging _ => true
  | .discardStaging _ => true
  | .commit _ => true
  | .softReset _ => true
  | .nakOfByteEnd _ _ => true

end Sys2Proof
end

