-- ==== Sys2Proof/Decode.lean ====
section
/-! DEFINITION. Table words. No row of spec/opcode_table.json gives bits (every row's "fields" is empty and none has "fixed"), so
no word spells a command. The bytes of management frames, which do have codes (R184), are read by `Machine/Operands.lean`. -/

namespace Sys2Proof

/-- The command that a table word spells: none, since the table gives no row any bits. -/
def decodeTableWord (nbits w : Nat) : Option Instr :=
  match nbits, w with
  | _, _ => none

end Sys2Proof
end

