-- ==== Sys2Proof/Machine/Parts.lean ====
section
/-! DEFINITION. The parts that State is made of: policy entries, port front ends, access contexts, management units, segment
controllers, violation records and the staging unit, each with its power-on value. Plain data only. -/

namespace Sys2Proof.Machine

/-- One value for each port. -/
structure PerPort (α : Type) where
  a : α
  b : α
  deriving DecidableEq, Repr

/-- The value of port `p`. -/
def PerPort.get {α : Type} (x : PerPort α) : Port → α
  | .A => x.a
  | .B => x.b

/-- Replace the value of port `p`. -/
def PerPort.set {α : Type} (x : PerPort α) (p : Port) (v : α) : PerPort α :=
  match p with
  | .A => ⟨v, x.b⟩
  | .B => ⟨x.a, v⟩

/-- The other port. -/
def other : Port → Port
  | .A => .B
  | .B => .A

/-! ## Policy entries (R1 to R11) -/

/-- The ports field of an entry (R4). -/
inductive PortSet where
  | neither
  | onlyA
  | onlyB
  | both
  deriving DecidableEq, Repr

/-- The index width field, in bytes (R7). -/
inductive IndexWidth where
  | zero
  | one
  | two
  deriving DecidableEq, Repr

/-- A read or write window: presence and stored bounds, which an absent window keeps (R8). -/
structure Window where
  present : Bool
  low : Word16
  high : Word16
  deriving DecidableEq, Repr

/-- A policy entry: the eleven fields of section 1.2. -/
structure Entry where
  enabled : Bool
  ports : PortSet
  upAddr : Addr7
  segment : Seg
  downAddr : Addr7
  width : IndexWidth
  readWin : Window
  writeWin : Window
  limit : Byte
  blind : Bool
  quiet : Bool
  deriving DecidableEq, Repr

/-- An absent window with stored bounds 0 and 0. -/
def Window.cleared : Window := ⟨false, 0, 0⟩

/-- The cleared entry (R2). -/
def Entry.cleared : Entry :=
  { enabled := false, ports := .neither, upAddr := 0, segment := 0, downAddr := 0, width := .zero,
    readWin := .cleared, writeWin := .cleared, limit := 0, blind := false, quiet := false }

/-- A policy table: the record at position n is entry n (R1). -/
abbrev Table := Vector Entry 32

/-- Thirty-two cleared entries (R2). -/
def clearedTable : Table := Vector.replicate 32 Entry.cleared

/-- The two counters of an entry (section 1.7). -/
structure Counters where
  accepted : Nat
  denied : Nat
  deriving DecidableEq, Repr

/-- Both counters zero (R23). -/
def Counters.zero : Counters := ⟨0, 0⟩

/-- A target: a chip identified by segment and downstream address (R6). -/
structure Target where
  segment : Seg
  address : Addr7
  deriving DecidableEq, Repr

/-- One record of the cursor map (R70). -/
structure CursorRec where
  target : Target
  width : IndexWidth
  cursor : Option Word16
  deriving DecidableEq, Repr

/-! ## Port front end (R24) -/

/-- Bus state of a port. -/
inductive BusState where
  | free
  | active
  deriving DecidableEq, Repr

/-- Byte in progress of a port: none, the bits received so far, or the byte being delivered. -/
inductive ByteInProgress where
  | none
  | receiving (bits : List Bool)
  | delivering (b : Byte)
  deriving DecidableEq, Repr

/-- Byte role of a port: what the next byte is. -/
inductive ByteRole where
  | address
  | written
  | read
  deriving DecidableEq, Repr

/-- What the part does with a port's SDA. -/
inductive Drive where
  | released
  | low
  deriving DecidableEq, Repr

/-- The upstream bus timeout timer (R33). -/
inductive TimeoutTimer where
  | stopped
  | counting
  | spent
  deriving DecidableEq, Repr

/-- The state of one port front end. -/
structure FrontEnd where
  bus : BusState
  byte : ByteInProgress
  role : ByteRole
  hold : Bool
  drive : Drive
  timer : TimeoutTimer
  deriving DecidableEq, Repr

/-- The front end after power-on with the port's SCL at `scl` (R24). -/
def FrontEnd.powerOn (scl : Line) : FrontEnd :=
  { bus := .free, byte := .none, role := .address, hold := false, drive := .released,
    timer := match scl with
      | .high => .stopped
      | .low => .counting }

/-! ## Access context (R41, R42) -/

/-- The states of an access context (R41). -/
inductive CtxState where
  | idle
  | unaddressed
  | matching
  | waiting
  | opening
  | writeIndex
  | writeData
  | readData
  | readEnd
  | filler
  | refusing
  | mgmtWrite
  | mgmtRead
  deriving DecidableEq, Repr

/-- Direction of an access. -/
inductive Dir where
  | read
  | write
  deriving DecidableEq, Repr

/-- The access record (R42). -/
structure Access where
  entryNo : Fin 32
  copy : Entry
  dir : Dir
  held : Option Seg
  cursor : Option Word16
  indexBytes : Nat
  indexValue : Word16
  count : Nat
  detached : Bool
  deriving DecidableEq, Repr

/-- An access context: its state, its access record while an access is in progress, and the segment retained across a repeated
START in the interval in which there is no record (R63). -/
structure Context where
  state : CtxState
  access : Option Access
  retained : Option Seg
  deriving DecidableEq, Repr

/-- A context with no access in progress. -/
def Context.idle : Context := ⟨.idle, none, none⟩

/-! ## Management unit (R136) -/

/-- Check mode (R136). -/
inductive CheckMode where
  | stopping
  | persistent
  deriving DecidableEq, Repr

/-- Guard state (R136). -/
inductive Guard where
  | normal
  | guarded
  deriving DecidableEq, Repr

/-- The first fault of a frame (R138, R140, R141). -/
inductive FrameFault where
  | unknown
  | check
  | length
  deriving DecidableEq, Repr

/-- A frame in assembly: its command byte if received, the payload bytes received, the running check value, whether the check byte
was received and matched, and the first fault. -/
structure Frame where
  command : Option Byte
  payload : List Byte
  crc : Byte
  matched : Bool
  fault : Option FrameFault
  deriving DecidableEq, Repr

/-- The first-error record (R145). -/
structure FirstError where
  command : Byte
  received : Byte
  computed : Byte
  bytes : Nat
  deriving DecidableEq, Repr

/-- The reasons of validation (R15). -/
inductive Reason where
  | noPort
  | reservedAddress
  | mgmtAddress
  | duplicate
  | windowBounds
  | widthMismatch
  deriving DecidableEq, Repr

/-- The detail of a REJECTED result: a failing entry with its reason, or ABANDONED (R144). -/
inductive Rejection where
  | entry (n : Fin 32) (r : Reason)
  | abandoned
  deriving DecidableEq, Repr

/-- The results of frames and commits (R144). -/
inductive Result where
  | done
  | pending
  | check
  | length
  | unknown
  | guarded
  | owned
  | busy
  | invalid
  | range
  | rejected (why : Rejection)
  deriving DecidableEq, Repr

/-- The result record of a port (R144). -/
structure ResultRecord where
  command : Byte
  result : Result
  serial : Byte
  deriving DecidableEq, Repr

/-- A view with its argument (R149). -/
inductive View where
  | status
  | activeEntry (n : Fin 32)
  | stagedEntry (n : Fin 32)
  | log
  | firstError
  | segment (d : Seg)
  deriving DecidableEq, Repr

/-- The view selection of a port (R149). -/
structure Selection where
  view : View
  cursor : Nat
  deriving DecidableEq, Repr

/-- A management read in progress: the snapshot, the position in it, and whether advances are stored as the view cursor, which a
SOFT RESET of the other port ends (R152). -/
structure ReadPosition where
  snapshot : List Byte
  pos : Nat
  stored : Bool
  deriving DecidableEq, Repr

/-- The state of one management unit. -/
structure MgmtUnit where
  frame : Option Frame
  mode : CheckMode
  guard : Guard
  firstError : Option FirstError
  failures : Nat
  result : ResultRecord
  selection : Selection
  reading : Option ReadPosition
  deriving DecidableEq, Repr

/-- The management unit after power-on (R136). -/
def MgmtUnit.powerOn : MgmtUnit :=
  { frame := none, mode := .stopping, guard := .normal, firstError := none, failures := 0,
    result := ⟨0, .done, 0⟩, selection := ⟨.status, 0⟩, reading := none }

/-! ## Segment controller (R87, R108) -/

/-- Segment states (R87). -/
inductive SegState where
  | disabled
  | idle
  | held
  | recovering
  | fault
  deriving DecidableEq, Repr

/-- The downstream bus of a segment (R87). -/
inductive SegBus where
  | idle
  | opened
  | closing
  deriving DecidableEq, Repr

/-- A downstream transfer in flight (R90), or the bus-clear inside OPENING (R101). A START or repeated START carries the translated
address that follows it and the access's direction as its read/write bit (R5, R48). -/
inductive Transfer where
  | start (again : Bool) (address : Addr7) (dir : Dir)
  | indexByte (b : Byte)
  | dataByte (b : Byte)
  | fetch
  | nak
  | busClear
  deriving DecidableEq, Repr

/-- Segment speeds in kHz (R88). -/
inductive Speed where
  | k50
  | k100
  | k400
  | k1000
  deriving DecidableEq, Repr

/-- The configuration of a segment; the stall timeout is in ms (R88). -/
structure SegConfig where
  speed : Speed
  stall : Nat
  enable : Bool
  deriving DecidableEq, Repr

/-- The default configuration (R88). -/
def SegConfig.default : SegConfig := ⟨.k100, 25, true⟩

/-- A lease: its holder and the moment, in ms, at which it expires (R108). -/
structure Lease where
  holder : Port
  expiry : Nat
  deriving DecidableEq, Repr

/-- A waiter: its port, the hold limit in force for this wait, and the moment its hold-limit timer started (R108, R111). -/
structure Waiter where
  port : Port
  limit : Nat
  since : Nat
  deriving DecidableEq, Repr

/-- The eleven violation kinds (R124). -/
inductive Kind where
  | readWindow
  | writeWindow
  | blindRead
  | length
  | segmentBusy
  | segmentDown
  | targetNak
  | dataNak
  | stall
  | stuck
  | upstreamLost
  deriving DecidableEq, Repr

/-- What an address byte comes to once the retained segment that it gives up has been released (R64): left unanswered; the beginning of a
frame; a snapshot; a refusal with its kind and index; or the request of the copy's segment, with the level at which SDA of that segment is
found where the request is granted (R90). -/
inductive AddressOutcome where
  | unanswered
  | frame
  | snapshot
  | refused (kind : Kind) (index : Option Word16)
  | request (sda : Line)
  deriving DecidableEq, Repr

/-- The address byte of a port that waits for the release of a segment, and what follows it (R64, R91). -/
structure Resume where
  port : Port
  outcome : AddressOutcome
  deriving DecidableEq, Repr

/-- The state of one segment controller with its arbiter. `openAfter` marks a START that waits for the NAK transfer in flight to
end (R90); `requests` are the requests made during a close, in order (R92); `resume` is the address byte that gave this segment up and
whose answer waits for the release (R64, R91). -/
structure Segment where
  state : SegState
  holder : Option Port
  bus : SegBus
  transfer : Option Transfer
  openAfter : Bool
  config : SegConfig
  pendingConfig : Option SegConfig
  lease : Option Lease
  waiters : List Waiter
  requests : List Port
  resume : Option Resume
  deriving DecidableEq, Repr

/-- A segment at a reset release: RECOVERING with default configuration (R87, R103). -/
def Segment.powerOn : Segment :=
  { state := .recovering, holder := none, bus := .idle, transfer := none, openAfter := false,
    config := .default, pendingConfig := none, lease := none, waiters := [], requests := [], resume := none }

/-! ## Violation log (R122, R123) -/

/-- What a maker hands to the log: a violation record less its sequence, which the log assigns (R123). -/
structure Report where
  kind : Kind
  port : Option Port
  dir : Option Dir
  upAddr : Option Addr7
  entry : Option (Fin 32)
  segment : Seg
  index : Option Word16
  generation : Word16
  offset : Nat
  deriving DecidableEq, Repr

/-- A violation record held in the log (R123). -/
structure Violation where
  sequence : Word16
  report : Report
  deriving DecidableEq, Repr

/-- The violation log (R122). -/
structure Log where
  records : List Violation
  next : Word16
  dropped : Nat
  deriving DecidableEq, Repr

/-- The log after power-on (R122). -/
def Log.powerOn : Log := ⟨[], 0, 0⟩

/-- The attention mask: one enable for each source (R133). -/
structure AttnMask where
  log : Bool
  check : Bool
  fault : Bool
  deriving DecidableEq, Repr

/-! ## Staging unit (R171) -/

/-- Staging states (R171). -/
inductive StagingState where
  | free
  | owned (p : Port)
  | committing (p : Port)
  deriving DecidableEq, Repr

/-- The ownership idle timer: stopped, or counting since a moment in ms (R174). -/
inductive IdleTimer where
  | stopped
  | counting (since : Nat)
  deriving DecidableEq, Repr

/-- The last commit outcome (R183). -/
inductive CommitOutcome where
  | none
  | done
  | rejected (n : Fin 32) (r : Reason)
  | abandoned
  deriving DecidableEq, Repr

/-- The staging unit. Its validation is in progress exactly in COMMITTING (R171), so it is no field of its own. -/
structure Staging where
  image : Table
  state : StagingState
  timer : IdleTimer
  outcome : CommitOutcome
  deriving DecidableEq, Repr

/-- The staging unit after power-on (R171). -/
def Staging.powerOn : Staging := ⟨clearedTable, .free, .stopped, .none⟩

end Sys2Proof.Machine
end

