-- ==== Sys2Proof/Machine/State.lean ====
section
/-! DEFINITION. The state of the part, the reasons at which the model stops, and the state after reset. -/

namespace Sys2Proof.Machine

/-- Every piece of state that the spec gives the part, the model's own time and free-value counters, and the queue of commands
that wait (first in, first out). -/
structure State where
  /-- RESET_N has been taken low and not yet released (R38). -/
  inReset : Bool
  /-- The sampled straps, MA1 the high bit (R37). -/
  straps : BitVec 2
  /-- The port front ends (R24). -/
  frontEnds : PerPort FrontEnd
  /-- The access contexts (R41). -/
  contexts : PerPort Context
  /-- The management units (R136). -/
  units : PerPort MgmtUnit
  /-- The hold limit of each port in ms (R108). -/
  holdLimits : PerPort Nat
  /-- The active table (R1). -/
  active : Table
  /-- The generation (R19). -/
  generation : Word16
  /-- The entry counters (R20 to R23). -/
  counters : Vector Counters 32
  /-- The staging unit (R171). -/
  staging : Staging
  /-- The cursor map, keys rising (R70). -/
  cursors : List CursorRec
  /-- The segment controllers D0..D3 (R87). -/
  segments : Vector Segment 4
  /-- The violation log (R122). -/
  log : Log
  /-- The attention mask (R133). -/
  mask : AttnMask
  /-- The model's own: the moment in ms that idle steps have reached, by which leases, waits and the ownership idle timer are measured
  (logs 2, 3). -/
  now : Nat
  /-- The model's own: how many free values have been drawn (log 8). -/
  freeCount : Nat
  /-- The commands that wait, first in first out. -/
  pending : List Instr
  deriving DecidableEq, Repr

/-- Why the model stops at a command. Both say that the environment sent an event that the spec rules out in this state (log 6). -/
inductive Fault where
  /-- Raised by the upstream events and by the management frames of a port whose clock the part holds, or whose context is in
  MATCH, WAITING or OPENING: no condition, byte or timeout can arrive there (R29, R33, R41). Raised too by the conditions, bytes and answers of a port
  in READ_DATA that delivers no byte: its clock is held for the fetch, or will be as soon as the ninth bit of its address, the ACK that the part
  drives, has been clocked (R28, R54, R62). Safe: the part never meets it. -/
  | clockHeld
  /-- Raised by an event that ends or continues a byte, an access, a transfer, a close or a recovery that is not in progress
  (R25, R26, R41, R90, R93, R98), and by a management frame on a port whose context is in another access (R137). Safe: the part
  never meets it. -/
  | notInProgress
  deriving DecidableEq, Repr

/-- Why the model refuses a command. -/
inductive Refusal where
  /-- Raised by an arm of exec that has no meaning yet. Safe: nothing is claimed of the command. -/
  | notModelled (mnemonic : String)
  deriving DecidableEq, Repr

/-- The part right after a reset release: straps sampled low and upstream clocks high (log 1), every other field as R2, R24, R38,
R87, R108, R122, R133, R136 and R171 give it. -/
def State.reset : State :=
  { inReset := false
    straps := 0
    frontEnds := ⟨.powerOn .high, .powerOn .high⟩
    contexts := ⟨.idle, .idle⟩
    units := ⟨.powerOn, .powerOn⟩
    holdLimits := ⟨Config.defaultHoldLimit, Config.defaultHoldLimit⟩
    active := clearedTable
    generation := 0
    counters := Vector.replicate 32 Counters.zero
    staging := .powerOn
    cursors := []
    segments := Vector.replicate 4 Segment.powerOn
    log := .powerOn
    mask := ⟨true, true, true⟩
    now := 0
    freeCount := 0
    pending := [] }

end Sys2Proof.Machine
end

