-- ==== Sys2Proof/Machine/Ops.lean ====
section
/-! DEFINITION. The named operations over the state: the one home of each part and its accessors, the port front end's answers, the
violation log, the entry counters, the cursor map, refusals, and the giving up of a segment. -/

namespace Sys2Proof.Machine

/-- The outcome of one command. -/
abbrev Out := Host.Outcome State Fault Refusal

/-! ## Accessors -/

/-- The front end of port `p`. -/
def State.fe (s : State) (p : Port) : FrontEnd := s.frontEnds.get p

/-- Replace the front end of port `p`. -/
def State.setFe (s : State) (p : Port) (f : FrontEnd) : State := { s with frontEnds := s.frontEnds.set p f }

/-- The access context of port `p`. -/
def State.ctx (s : State) (p : Port) : Context := s.contexts.get p

/-- Replace the access context of port `p`. -/
def State.setCtx (s : State) (p : Port) (c : Context) : State := { s with contexts := s.contexts.set p c }

/-- The management unit of port `p`. -/
def State.mgmt (s : State) (p : Port) : MgmtUnit := s.units.get p

/-- Replace the management unit of port `p`. -/
def State.setMgmt (s : State) (p : Port) (m : MgmtUnit) : State := { s with units := s.units.set p m }

/-- The hold limit of port `p` in ms. -/
def State.holdLimit (s : State) (p : Port) : Nat := s.holdLimits.get p

/-- Replace the hold limit of port `p`. -/
def State.setHoldLimit (s : State) (p : Port) (n : Nat) : State := { s with holdLimits := s.holdLimits.set p n }

/-- The segment controller of segment `d`. -/
def State.seg (s : State) (d : Seg) : Segment := s.segments[d]

/-- Replace the segment controller of segment `d`. -/
def State.setSeg (s : State) (d : Seg) (g : Segment) : State := { s with segments := s.segments.set d g }

/-- Replace the violation log. -/
def State.setLog (s : State) (l : Log) : State := { s with log := l }

/-- Replace the cursor map. -/
def State.setCursors (s : State) (m : List CursorRec) : State := { s with cursors := m }

/-- Replace all entry counters. -/
def State.setCounters (s : State) (c : Vector Counters 32) : State := { s with counters := c }

/-- Replace the staging unit. -/
def State.setStaging (s : State) (g : Staging) : State := { s with staging := g }

/-- Replace the attention mask. -/
def State.setMask (s : State) (m : AttnMask) : State := { s with mask := m }

/-- Note that one more free value has been drawn. -/
def State.drawFree (s : State) : State := { s with freeCount := s.freeCount + 1 }

/-- Replace the queue of waiting commands. -/
def State.setPending (s : State) (q : List Instr) : State := { s with pending := q }

/-- The management address: 0x48 plus the sampled straps (R32). -/
def State.mgmtAddr (s : State) : Addr7 := 0x48#7 + s.straps.zeroExtend 7

/-! ## Port front end (R24 to R28) -/

/-- SCL of port `p` has been seen high, as every condition and every clocked bit shows: the timeout timer is stopped and a spent one is
re-armed (R33). -/
def sclSeen (p : Port) (s : State) : State :=
  s.setFe p { s.fe p with timer := .stopped }

/-- The part gives the ninth bit `a` on port `p` and releases its clock hold. SCL is low at that moment, so the timeout timer counts, until SCL is
seen high (R27, R28, R33, log 14). -/
def answer (p : Port) (a : Ack) (s : State) : State :=
  s.setFe p { s.fe p with
    hold := false
    byte := .none
    drive := match a with
      | .ack => .low
      | .nak => .released
    timer := .counting }

/-- The part holds the clock of port `p`, with SDA released; its timeout timer stops (R28, R33). -/
def holdClock (p : Port) (s : State) : State :=
  s.setFe p { s.fe p with hold := true, byte := .none, drive := .released, timer := .stopped }

/-- The part places the first bit of read byte `b` on SDA of port `p` and releases the clock. SCL is low at that moment, so the timeout timer
counts (R26, R28, R33, log 14). -/
def deliver (p : Port) (b : Byte) (s : State) : State :=
  s.setFe p { s.fe p with
    hold := false
    byte := .delivering b
    role := .read
    drive := if b.msb then .released else .low
    timer := .counting }

/-- The part releases both lines of port `p` and assembles and delivers nothing. -/
def releaseLines (p : Port) (s : State) : State :=
  s.setFe p { s.fe p with hold := false, byte := .none, drive := .released }

/-- The bytes that follow on port `p` are written or read bytes, by the direction of the address byte (R26). -/
def setRole (p : Port) (dir : Dir) (s : State) : State :=
  s.setFe p { s.fe p with
    role := match dir with
      | .read => .read
      | .write => .written }

/-- Change the state of port `p`'s context and keep its records. -/
def setState (p : Port) (c : CtxState) (s : State) : State :=
  s.setCtx p { s.ctx p with state := c }

/-- Port `p`'s context returns to IDLE with no access record (R62). -/
def toIdle (p : Port) (s : State) : State :=
  s.setCtx p .idle

/-! ## Violation log (R126, R127) -/

/-- Add one to a count that stays at `top`. -/
def satInc (top n : Nat) : Nat := if n < top then n + 1 else top

/-- The log takes a record: appended with the next sequence where it holds fewer than 16, else dropped and counted (R126, R127). -/
def Log.take (r : Report) (l : Log) : Log :=
  if l.records.length < Config.logCapacity then
    { l with records := l.records ++ [⟨l.next, r⟩], next := l.next + 1 }
  else
    { l with dropped := satInc Config.countTop l.dropped }

/-- A maker hands the record `r` to the log. -/
def hand (r : Report) (s : State) : State :=
  s.setLog (s.log.take r)

/-- Put the items of a short list in the order that the number `k` names; every order has such a number. -/
def arrange {α : Type} : Nat → Nat → List α → List α
  | _, _, [] => []
  | _, _, [x] => [x]
  | 0, _, l => l
  | fuel + 1, k, x :: y :: rest =>
    let l := x :: y :: rest
    let i := k % l.length
    (l.drop i).take 1 ++ arrange fuel (k / l.length) (l.eraseIdx i)

/-- One event hands several records to the log together: they are taken one after the other, in an order that the spec leaves open
(R128, log 8). -/
def handTogether (rs : List Report) (s : State) : State :=
  match rs with
  | [] => s
  | [r] => hand r s
  | rs => ((arrange rs.length (Config.recordOrder s.freeCount) rs).foldl (fun t r => hand r t) s).drawFree

/-! ## Records and refusals of an access (R65) -/

/-- The violation record of port `p`'s access `a` (R65). -/
def accessReport (s : State) (p : Port) (a : Access) (k : Kind) (index : Option Word16) (offset : Nat) : Report :=
  { kind := k, port := some p, dir := some a.dir, upAddr := some a.copy.upAddr, entry := some a.entryNo,
    segment := a.copy.segment, index := index, generation := s.generation, offset := offset }

/-- The STUCK record that belongs to no access (R125). -/
def segmentReport (s : State) (d : Seg) : Report :=
  { kind := .stuck, port := none, dir := none, upAddr := none, entry := none, segment := d, index := none,
    generation := s.generation, offset := 0 }

/-- The kinds that a quiet entry suppresses (R11, R124). -/
def Kind.quietable : Kind → Bool
  | .targetNak => true
  | .dataNak => true
  | _ => false

/-- Port `p`'s access makes its violation record, unless its copy is quiet and the kind is one that quiet suppresses (R65). -/
def record (p : Port) (k : Kind) (index : Option Word16) (offset : Nat) (s : State) : State :=
  match (s.ctx p).access with
  | none => s
  | some a => if a.copy.quiet && k.quietable then s else hand (accessReport s p a k index offset) s

/-- The counters of entry `n` with one more accepted access (R20, R22). -/
def Counters.accept (c : Counters) : Counters := { c with accepted := satInc Config.countTop c.accepted }

/-- The counters of entry `n` with one more denied access (R21, R22). -/
def Counters.deny (c : Counters) : Counters := { c with denied := satInc Config.countTop c.denied }

/-- Replace the counters of entry `n` by their image under `f`. -/
def countEntry (n : Fin 32) (f : Counters → Counters) (s : State) : State :=
  s.setCounters (s.counters.set n (f s.counters[n]))

/-- Port `p`'s context makes an accepted claim, unless it is detached (R20, R22). -/
def claimAccepted (p : Port) (s : State) : State :=
  match (s.ctx p).access with
  | none => s
  | some a => if a.detached then s else countEntry a.entryNo Counters.accept s

/-- Port `p`'s context makes a denied claim, unless it is detached (R21, R22). -/
def claimDenied (p : Port) (s : State) : State :=
  match (s.ctx p).access with
  | none => s
  | some a => if a.detached then s else countEntry a.entryNo Counters.deny s

/-- The record and the denied claim of a refusal or a cut-short read (R21, R65). -/
def penalize (p : Port) (k : Kind) (index : Option Word16) (offset : Nat) (s : State) : State :=
  claimDenied p (record p k index offset s)

/-- The refusal of port `p`'s address or written byte less its record: denied, NAK, REFUSING. -/
def refuseSilently (p : Port) (s : State) : State :=
  setState p .refusing (answer p .nak (claimDenied p s))

/-- The refusal of port `p`'s address or written byte: record, denied, NAK, REFUSING (R43, R52). -/
def refuse (p : Port) (k : Kind) (index : Option Word16) (offset : Nat) (s : State) : State :=
  refuseSilently p (record p k index offset s)

/-! ## Cursor map (R70 to R81) -/

/-- The target of an entry (R6). -/
def Entry.target (e : Entry) : Target := ⟨e.segment, e.downAddr⟩

/-- The place of a target in the key order of the cursor map. -/
def Target.key (t : Target) : Nat := t.segment.val * 128 + t.address.toNat

/-- The map's record for a target. -/
def findCursor (m : List CursorRec) (t : Target) : Option CursorRec :=
  m.find? (fun r => r.target = t)

/-- The working cursor that a context loads for the entry copy `e` (R73). -/
def loadCursor (m : List CursorRec) (e : Entry) : Option Word16 :=
  match e.width with
  | .zero => none
  | w => match findCursor m e.target with
    | some r => if r.width = w then r.cursor else none
    | none => none

/-- The map takes `v` as the cursor of target `t` where it holds that key with width `w`, else discards it (R80). -/
def storeCursor (t : Target) (w : IndexWidth) (v : Option Word16) (m : List CursorRec) : List CursorRec :=
  m.map (fun r => if r.target = t ∧ r.width = w then { r with cursor := v } else r)

/-- Make absent the cursors of the records that `f` picks, and keep every key and width (R72, R83 to R85). -/
def clearCursors (f : Target → Bool) (m : List CursorRec) : List CursorRec :=
  m.map (fun r => if f r.target then { r with cursor := none } else r)

/-- The next index after one byte: modulo 256 for width 1, modulo 65536 for width 2; an absent cursor stays absent (R75). -/
def advance (w : IndexWidth) (c : Option Word16) : Option Word16 :=
  match w, c with
  | _, none => none
  | .zero, some _ => none
  | .one, some i => some ((i + 1) &&& 0x00FF#16)
  | .two, some i => some (i + 1)

/-- A hand-back of access `a` with the value `v`: none for a detached context and for width 0 (R61, R67, R80). -/
def handBack (a : Access) (v : Option Word16) (s : State) : State :=
  if a.detached then s
  else match a.copy.width with
    | .zero => s
    | w => s.setCursors (storeCursor a.copy.target w v s.cursors)

/-! ## Holding a segment (R42, R63) -/

/-- The holder of segment `d` and its access. -/
def holderAccess (d : Seg) (s : State) : Option (Port × Access) :=
  match (s.seg d).holder with
  | none => none
  | some p => (s.ctx p).access.map (fun a => (p, a))

/-! ## Giving up a segment (R91) -/

/-- The segment that a context holds: by its access record, or retained across a repeated START (R42, R63). -/
def Context.segment? (c : Context) : Option Seg :=
  match c.access with
  | some a => a.held
  | none => c.retained

/-- Close request on segment `d`: no holder, bus closing. A transfer in flight runs to its end first; where there is none, `tail` is
the NAK that the last byte still needs, if any (R90, R91). The close end is an event of its own. A bus-clear inside OPENING that runs on
after a SOFT RESET is in the same state (R69, log 24). -/
def closeRequest (d : Seg) (tail : Option Transfer) (s : State) : State :=
  let g := s.seg d
  s.setSeg d { g with holder := none, bus := .closing, transfer := g.transfer.or tail, openAfter := false }

/-- Port `p`'s context gives up its target: it hands back `v` and no longer holds the segment (R61, R91). -/
def giveUp (p : Port) (v : Option Word16) (s : State) : State :=
  match (s.ctx p).access with
  | none => s
  | some a => (handBack a v s).setCtx p { s.ctx p with access := some { a with held := none, cursor := v } }

/-- Port `p`'s context releases the segment it holds: hand-back of `v`, then the close of R91. -/
def letGo (p : Port) (v : Option Word16) (tail : Option Transfer) (s : State) : State :=
  match (s.ctx p).access with
  | none => s
  | some a => match a.held with
    | none => s
    | some d => closeRequest d tail (giveUp p v s)

/-- Port `p`'s context closes and releases the segment it retains across a repeated START, if any (R63). -/
def dropRetained (p : Port) (s : State) : State :=
  match (s.ctx p).retained with
  | none => s
  | some d => (closeRequest d none s).setCtx p { s.ctx p with retained := none }

/-- Port `p`'s address byte, for which its context is in MATCH with the clock held, gives up the retained segment `d`: the close is requested, and
`o` follows once the segment has been released (R44, R64, R91, log 23). -/
def awaitRelease (p : Port) (d : Seg) (o : AddressOutcome) (s : State) : State :=
  let s1 := (closeRequest d none s).setCtx p { s.ctx p with retained := none }
  s1.setSeg d { s1.seg d with resume := some ⟨p, o⟩ }

/-! ## When an event can arrive -/

/-- The states of a context in which the part holds the upstream clock throughout (R41). -/
def CtxState.clockHeld : CtxState → Bool
  | .matching => true
  | .waiting => true
  | .opening => true
  | _ => false

/-- Port `p` is delivering a byte. -/
def delivering (p : Port) (s : State) : Bool :=
  match (s.fe p).byte with
  | .delivering _ => true
  | _ => false

/-- Port `p`'s context is in READ_DATA and delivers no byte: a byte is being fetched, or the ninth bit of the address is still to be clocked, after
which byte 0 is fetched (R54, R62, log 16). -/
def awaitsByte (p : Port) (s : State) : Bool := (s.ctx p).state = .readData && !delivering p s

/-- An event of upstream port `p`: without effect while RESET_N is low (R38). It cannot arrive while the part holds the clock (R29), nor in READ_DATA
outside the delivery of a byte (R62): before the ninth bit of the address no condition can be formed, since the part drives SDA low (R25). -/
def upstream (p : Port) (s : State) (k : State → Out) : Out :=
  if s.inReset then .next s
  else if (s.fe p).hold || (s.ctx p).state.clockHeld || awaitsByte p s then .fault .clockHeld
  else k (sclSeen p s)

/-- An event of the part itself or of a segment: without effect while RESET_N is low, when every operation has ended (R38). -/
def running (s : State) (k : State → Out) : Out :=
  if s.inReset then .next s else k s

/-- The bytes on port `p` pass by: no transaction, or the part assembles nothing until the next START or STOP (R24, R27, R31). -/
def passesBy (p : Port) (s : State) : Bool :=
  (s.fe p).bus = .free ||
    ((s.fe p).role ≠ .address &&
      ((s.ctx p).state = .unaddressed || (s.ctx p).state = .refusing || (s.ctx p).state = .readEnd ||
        ((s.ctx p).state = .mgmtRead && (s.fe p).byte = .none)))

/-- A byte or answer on port `p` that the part does not take: it passes by, or it cannot arrive there. -/
def notTaken (p : Port) (s : State) : Out :=
  if passesBy p s then .next s else .fault .notInProgress

end Sys2Proof.Machine
end

