-- ==== Sys2Proof/Machine/Operands.lean ====
section
/-! DEFINITION. The operand forms: command codes and payloads of a frame, its check byte, entry images and field masks, and the codes of
results, reasons, kinds, speeds and states (R139, R184 to R187). -/

namespace Sys2Proof.Machine

/-! ## Bytes -/

/-- The high byte of a 16-bit value. -/
def hiByte (w : Word16) : Byte := (w >>> 8).setWidth 8

/-- The low byte of a 16-bit value. -/
def loByte (w : Word16) : Byte := w.setWidth 8

/-- Two bytes, the high byte first (R184). -/
def word (hi lo : Byte) : Word16 := hi ++ lo

/-- A 16-bit value as two bytes, high byte first (R187). -/
def wordBytes (w : Word16) : List Byte := [hiByte w, loByte w]

/-- A count as two bytes, high byte first (R187). -/
def countBytes (n : Nat) : List Byte := wordBytes (BitVec.ofNat 16 n)

/-- One bit of a byte. -/
def flagBit (b : Bool) (n : Nat) : Byte := if b then 1#8 <<< n else 0#8

/-! ## The check byte (R139) -/

/-- One shift of the check value: where the bit shifted out was 1, combine with 0x2F (R139). -/
def crcShift (v : Byte) : Byte := if v.msb then (v <<< 1) ^^^ 0x2F#8 else v <<< 1

/-- Fold the byte `b` into the check value `v`: exclusive-or, then eight shifts (R139). -/
def crcFold (v b : Byte) : Byte :=
  crcShift (crcShift (crcShift (crcShift (crcShift (crcShift (crcShift (crcShift (v ^^^ b))))))))

/-- The write form of the management address as it stands on the bus (R139). -/
def writeForm (a : Addr7) : Byte := a ++ 0#1

/-! ## Commands (R184) -/

/-- The payload length that a command code fixes; none for a value that is no code (R184). -/
def payloadLength (code : Byte) : Option Nat :=
  match code.toNat with
  | 0x11 => some 3
  | 0x12 => some 0
  | 0x13 => some 1
  | 0x14 => some 1
  | 0x21 => some 4
  | 0x22 => some 1
  | 0x23 => some 3
  | 0x24 => some 1
  | 0x31 => some 2
  | 0x32 => some 1
  | 0x33 => some 1
  | 0x34 => some 1
  | 0x41 => some 16
  | 0x42 => some 0
  | 0x43 => some 0
  | 0x44 => some 0
  | 0x5A => some 0
  | _ => none

/-- The code of a command (R184). -/
def commandCode : Command → Byte
  | .selectView _ _ _ => 0x11#8
  | .clearError => 0x12#8
  | .setCheckMode _ => 0x13#8
  | .setHoldLimit _ => 0x14#8
  | .configureSegment _ _ _ _ => 0x21#8
  | .recoverSegment _ => 0x22#8
  | .leaseSegment _ _ => 0x23#8
  | .releaseLease _ => 0x24#8
  | .acknowledgeLog _ => 0x31#8
  | .clearCounters _ => 0x32#8
  | .invalidateCursor _ => 0x33#8
  | .setAttentionMask _ => 0x34#8
  | .stageEntry _ _ _ => 0x41#8
  | .revertStaging => 0x42#8
  | .discardStaging => 0x43#8
  | .commit => 0x44#8
  | .softReset => 0x5A#8

/-- The command that a code and its payload bytes spell, payloads of two bytes high byte first; none where the payload has not the length
that the code fixes (R184, R185). -/
def commandOf (code : Byte) (payload : List Byte) : Option Command :=
  let x := fun i => payload.getD i 0x00#8
  if payloadLength code ≠ some payload.length then none
  else match code.toNat with
    | 0x11 => some (.selectView (x 0) (x 1) (x 2))
    | 0x12 => some .clearError
    | 0x13 => some (.setCheckMode (x 0))
    | 0x14 => some (.setHoldLimit (x 0))
    | 0x21 => some (.configureSegment (x 0) (x 1) (x 2) (x 3))
    | 0x22 => some (.recoverSegment (x 0))
    | 0x23 => some (.leaseSegment (x 0) (word (x 1) (x 2)))
    | 0x24 => some (.releaseLease (x 0))
    | 0x31 => some (.acknowledgeLog (word (x 0) (x 1)))
    | 0x32 => some (.clearCounters (x 0))
    | 0x33 => some (.invalidateCursor (x 0))
    | 0x34 => some (.setAttentionMask (x 0))
    | 0x41 => some (.stageEntry (x 0) (word (x 1) (x 2))
      ⟨x 3, x 4, x 5, x 6, x 7, word (x 8) (x 9), word (x 10) (x 11), word (x 12) (x 13), word (x 14) (x 15)⟩)
    | 0x42 => some .revertStaging
    | 0x43 => some .discardStaging
    | 0x44 => some .commit
    | 0x5A => some .softReset
    | _ => none

/-- The payload bytes of a command, as sent (R184, R185). -/
def commandPayload : Command → List Byte
  | .selectView v a o => [v, a, o]
  | .clearError => []
  | .setCheckMode m => [m]
  | .setHoldLimit h => [h]
  | .configureSegment d v t e => [d, v, t, e]
  | .recoverSegment d => [d]
  | .leaseSegment d w => d :: wordBytes w
  | .releaseLease d => [d]
  | .acknowledgeLog w => wordBytes w
  | .clearCounters n => [n]
  | .invalidateCursor n => [n]
  | .setAttentionMask m => [m]
  | .stageEntry n m i =>
    n :: wordBytes m ++ [i.flags, i.up, i.segWidth, i.down, i.limit] ++ wordBytes i.readLow ++ wordBytes i.readHigh ++
      wordBytes i.writeLow ++ wordBytes i.writeHigh
  | .revertStaging => []
  | .discardStaging => []
  | .commit => []
  | .softReset => []

/-- The commands that a guarded port still carries out, SELECT VIEW and CLEAR ERROR (R146). -/
def allowedGuarded (c : Command) : Bool := commandCode c = 0x11#8 || commandCode c = 0x12#8

/-! ## Payload items -/

/-- A segment number 0..3; 4..255 is out of range. -/
def segOf (b : Byte) : Option Seg :=
  if h : b.toNat < 4 then some ⟨b.toNat, h⟩ else none

/-- An entry number 0..31. -/
def entryOf (b : Byte) : Option (Fin 32) :=
  if h : b.toNat < 32 then some ⟨b.toNat, h⟩ else none

/-- One entry, all of them, or out of range: 0..31, 0xFF, 32..254 (R164, R165). -/
inductive EntrySel where
  | one (n : Fin 32)
  | all
  deriving DecidableEq, Repr

/-- The entry selector that a payload byte names (R164, R165). -/
def entrySelOf (b : Byte) : Option EntrySel :=
  match entryOf b with
  | some n => some (.one n)
  | none => if b = 0xFF#8 then some .all else none

/-- Speed codes (R184). -/
def speedOf (b : Byte) : Option Speed :=
  match b.toNat with
  | 0 => some .k50
  | 1 => some .k100
  | 2 => some .k400
  | 3 => some .k1000
  | _ => none

/-- The code of a speed (R184). -/
def speedCode : Speed → Byte
  | .k50 => 0x00#8
  | .k100 => 0x01#8
  | .k400 => 0x02#8
  | .k1000 => 0x03#8

/-- On or off: 0x01 or 0x00, anything else is out of range (R184). -/
def onOff (b : Byte) : Option Bool :=
  match b.toNat with
  | 0 => some false
  | 1 => some true
  | _ => none

/-- The check mode that SET CHECK MODE names (R157, R184). -/
def modeOf (b : Byte) : Option CheckMode :=
  match b.toNat with
  | 0 => some .stopping
  | 1 => some .persistent
  | _ => none

/-- The settings that CONFIGURE SEGMENT carries, if every item is in range (R159). -/
def configOf (speed stall enable : Byte) : Option SegConfig :=
  match speedOf speed, onOff enable with
  | some v, some e => if 1 ≤ stall.toNat ∧ stall.toNat ≤ 100 then some ⟨v, stall.toNat, e⟩ else none
  | _, _ => none

/-- The enables that SET ATTENTION MASK carries; any of bits 7..3 set is out of range (R166, R184). -/
def maskOf (b : Byte) : Option AttnMask :=
  if b.toNat < 8 then some ⟨b.getLsbD 0, b.getLsbD 1, b.getLsbD 2⟩ else none

/-- The view that SELECT VIEW names, with its argument checked by the view (R155, R187). -/
def viewOf (view arg : Byte) : Option View :=
  match view.toNat with
  | 0 => some .status
  | 1 => (entryOf arg).map View.activeEntry
  | 2 => (entryOf arg).map View.stagedEntry
  | 3 => some .log
  | 4 => some .firstError
  | 5 => (segOf arg).map View.segment
  | _ => none

/-! ## Entry images and field masks (R185) -/

/-- The ports field of two flags. -/
def portSetOf (a b : Bool) : PortSet :=
  match a, b with
  | false, false => .neither
  | true, false => .onlyA
  | false, true => .onlyB
  | true, true => .both

/-- The entry's ports include port `p` (R4). -/
def PortSet.has : PortSet → Port → Bool
  | .neither, _ => false
  | .onlyA, p => p = .A
  | .onlyB, p => p = .B
  | .both, _ => true

/-- The index width that two bits of an image carry; 3 is no width (R185). -/
def widthOf (b : Byte) : Option IndexWidth :=
  match (b &&& 0x03#8).toNat with
  | 0 => some .zero
  | 1 => some .one
  | 2 => some .two
  | _ => none

/-- The code of an index width. -/
def widthCode : IndexWidth → Byte
  | .zero => 0x00#8
  | .one => 0x01#8
  | .two => 0x02#8

/-- The segment that bits 5..4 of image byte 2 carry (R185). -/
def imageSegment (i : EntryImage) : Seg :=
  ⟨(i.segWidth >>> 4).toNat % 4, Nat.mod_lt _ (by decide)⟩

/-- The entry image of an entry, unused bits 0 (R185). -/
def entryImage (e : Entry) : EntryImage :=
  { flags := flagBit e.enabled 7 ||| flagBit (e.ports.has .A) 6 ||| flagBit (e.ports.has .B) 5 ||| flagBit e.blind 4 |||
      flagBit e.quiet 3 ||| flagBit e.readWin.present 2 ||| flagBit e.writeWin.present 1
    up := e.upAddr.zeroExtend 8
    segWidth := (BitVec.ofNat 8 e.segment.val <<< 4) ||| widthCode e.width
    down := e.downAddr.zeroExtend 8
    limit := e.limit
    readLow := e.readWin.low
    readHigh := e.readWin.high
    writeLow := e.writeWin.low
    writeHigh := e.writeWin.high }

/-- The 13 bytes of an entry image (R185). -/
def imageBytes (i : EntryImage) : List Byte :=
  [i.flags, i.up, i.segWidth, i.down, i.limit] ++ wordBytes i.readLow ++ wordBytes i.readHigh ++ wordBytes i.writeLow ++
    wordBytes i.writeHigh

/-- STAGE ENTRY's argument checks on mask and image; the entry number is checked by `entryOf` (R168). -/
def stageArgsOk (mask : Word16) (i : EntryImage) : Bool :=
  mask ≠ 0 && (mask &&& 0xF800#16) = 0 &&
    !(mask.getLsbD 5 && (widthOf i.segWidth).isNone) &&
    !(mask.getLsbD 2 && i.up.msb) &&
    !(mask.getLsbD 4 && i.down.msb)

/-- The fields of the image that the mask selects, written into the entry `e`; a window is written whole (R173, R185). -/
def stageFields (mask : Word16) (i : EntryImage) (e : Entry) : Entry :=
  { enabled := if mask.getLsbD 0 then i.flags.getLsbD 7 else e.enabled
    ports := if mask.getLsbD 1 then portSetOf (i.flags.getLsbD 6) (i.flags.getLsbD 5) else e.ports
    upAddr := if mask.getLsbD 2 then i.up.setWidth 7 else e.upAddr
    segment := if mask.getLsbD 3 then imageSegment i else e.segment
    downAddr := if mask.getLsbD 4 then i.down.setWidth 7 else e.downAddr
    width := if mask.getLsbD 5 then (widthOf i.segWidth).getD e.width else e.width
    readWin := if mask.getLsbD 6 then ⟨i.flags.getLsbD 2, i.readLow, i.readHigh⟩ else e.readWin
    writeWin := if mask.getLsbD 7 then ⟨i.flags.getLsbD 1, i.writeLow, i.writeHigh⟩ else e.writeWin
    limit := if mask.getLsbD 8 then i.limit else e.limit
    blind := if mask.getLsbD 9 then i.flags.getLsbD 4 else e.blind
    quiet := if mask.getLsbD 10 then i.flags.getLsbD 3 else e.quiet }

/-! ## Codes (R184, R186, R187) -/

/-- Reason codes (R184). -/
def reasonCode : Reason → Byte
  | .noPort => 0x01#8
  | .reservedAddress => 0x02#8
  | .mgmtAddress => 0x03#8
  | .duplicate => 0x04#8
  | .windowBounds => 0x05#8
  | .widthMismatch => 0x06#8

/-- Result codes (R184). -/
def resultCode : Result → Byte
  | .done => 0x00#8
  | .pending => 0x01#8
  | .check => 0x02#8
  | .length => 0x03#8
  | .unknown => 0x04#8
  | .guarded => 0x05#8
  | .owned => 0x06#8
  | .busy => 0x07#8
  | .invalid => 0x08#8
  | .range => 0x09#8
  | .rejected _ => 0x0A#8

/-- The two detail bytes of a result: entry and reason (R144, R184). -/
def detailBytes : Result → List Byte
  | .rejected (.entry n r) => [BitVec.ofNat 8 n.val, reasonCode r]
  | .rejected .abandoned => [0xFF#8, 0x07#8]
  | _ => [0x00#8, 0x00#8]

/-- The five bytes of a result record (R184). -/
def resultBytes (r : ResultRecord) : List Byte :=
  [r.command, resultCode r.result] ++ detailBytes r.result ++ [r.serial]

/-- Kind codes (R186). -/
def kindCode : Kind → Byte
  | .readWindow => 0x01#8
  | .writeWindow => 0x02#8
  | .blindRead => 0x03#8
  | .length => 0x04#8
  | .segmentBusy => 0x05#8
  | .segmentDown => 0x06#8
  | .targetNak => 0x07#8
  | .dataNak => 0x08#8
  | .stall => 0x09#8
  | .stuck => 0x0A#8
  | .upstreamLost => 0x0B#8

/-- The code of a port or none: 0 none, 1 A, 2 B (R186, R187). -/
def portCode : Option Port → Byte
  | none => 0x00#8
  | some .A => 0x01#8
  | some .B => 0x02#8

/-- The code of a direction or none: 0 none, 1 read, 2 write (R186). -/
def dirCode : Option Dir → Byte
  | none => 0x00#8
  | some .read => 0x01#8
  | some .write => 0x02#8

/-- Segment state codes (R187). -/
def segStateCode : SegState → Byte
  | .disabled => 0x00#8
  | .idle => 0x01#8
  | .held => 0x02#8
  | .recovering => 0x03#8
  | .fault => 0x04#8

end Sys2Proof.Machine
end

