-- ==== Sys2Proof/Machine/Policy.lean ====
section
/-! DEFINITION. The policy table: matching (R13), the checks against an entry copy (R43, R47, R50, R55), the validity conditions (R15,
R16), and what a commit changes (R12, R71, R72). -/

namespace Sys2Proof.Machine

/-! ## Matching -/

/-- The reserved addresses, 0x00..0x07 and 0x78..0x7F (R5, R30). -/
def reserved (x : Addr7) : Bool := x.toNat < 0x08 || 0x78 ≤ x.toNat

/-- Entry `e` serves port `p` at address `x` (R13). -/
def Entry.serves (e : Entry) (p : Port) (x : Addr7) : Bool :=
  e.enabled && e.ports.has p && e.upAddr = x

/-- The enabled entry of a table that serves port `p` at address `x`, the lowest where an invalid table held several (R13). -/
def matchEntry (t : Table) (p : Port) (x : Addr7) : Option (Fin 32) :=
  (List.finRange 32).find? (fun n => t[n].serves p x)

/-! ## Checks against the entry copy -/

/-- The index lies inside the window, low..high inclusive (R8). -/
def Window.covers (w : Window) (i : Word16) : Bool := w.low.toNat ≤ i.toNat && i.toNat ≤ w.high.toNat

/-- Steps 1 and 2 of the address phase: the kind of the refusal, if any (R43, R44). -/
def firstSteps (a : Access) : Option Kind :=
  match a.dir with
  | .read => if a.copy.readWin.present then none else some .readWindow
  | .write => if a.copy.width = .zero && !a.copy.writeWin.present then some .writeWindow else none

/-- Step 4 of the address phase against the loaded cursor: kind and index of the refusal, if any (R47). -/
def stepFour (a : Access) (cursor : Option Word16) : Option (Kind × Option Word16) :=
  match a.dir, a.copy.width, cursor with
  | .write, _, _ => none
  | .read, .zero, _ => none
  | .read, _, none => if a.copy.blind then none else some (.blindRead, none)
  | .read, _, some i => if a.copy.readWin.covers i then none else some (.readWindow, some i)

/-- The length limit allows `n` data bytes in the access (R9). -/
def withinLimit (e : Entry) (n : Nat) : Bool := e.limit = 0 || n ≤ e.limit.toNat

/-- The index of a record: the cursor for width 1 or 2, absent for width 0 (R52, R65). -/
def recordIndex (a : Access) : Option Word16 :=
  match a.copy.width with
  | .zero => none
  | _ => a.cursor

/-- The checks of a written data byte, in order: the kind of the refusal, if any (R50, R52). A copy of width 1 or 2 has a present
cursor in WRITE_DATA (R49); were it absent the byte would not lie inside any window. -/
def writeCheck (a : Access) : Option Kind :=
  if !a.copy.writeWin.present then some .writeWindow
  else if a.copy.width ≠ .zero && !(match a.cursor with
      | some i => a.copy.writeWin.covers i
      | none => false) then some .writeWindow
  else if withinLimit a.copy (a.count + 1) then none
  else some .length

/-- The checks before the next read byte: the kind of the cut, if any. No window check for a blind or width-0 read (R55, R56, R59). -/
def readCheck (a : Access) : Option Kind :=
  if a.copy.width ≠ .zero && (match a.cursor with
      | some i => !a.copy.readWin.covers i
      | none => false) then some .readWindow
  else if withinLimit a.copy (a.count + 1) then none
  else some .length

/-! ## Validity (R15, R16) -/

/-- Two ports fields share a port. -/
def PortSet.overlaps (a b : PortSet) : Bool := (a.has .A && b.has .A) || (a.has .B && b.has .B)

/-- A present window breaks the legal bounds of its width (R8, R15). -/
def Window.badBounds (w : Window) (width : IndexWidth) : Bool :=
  w.present && match width with
    | .zero => false
    | .one => w.high.toNat < w.low.toNat || 255 < w.low.toNat || 255 < w.high.toNat
    | .two => w.high.toNat < w.low.toNat

/-- The first reason for which the enabled entry `e` fails, given the lower-numbered entries of its image (R15). -/
def entryFault (mgmt : Addr7) (lower : List Entry) (e : Entry) : Option Reason :=
  if !e.enabled then none
  else if e.ports = .neither then some .noPort
  else if reserved e.upAddr || reserved e.downAddr then some .reservedAddress
  else if e.upAddr = mgmt then some .mgmtAddress
  else if lower.any (fun j => j.enabled && j.ports.overlaps e.ports && j.upAddr = e.upAddr) then some .duplicate
  else if e.readWin.badBounds e.width || e.writeWin.badBounds e.width then some .windowBounds
  else if lower.any (fun j => j.enabled && j.target = e.target && j.width ≠ e.width) then some .widthMismatch
  else none

/-- Validation of an image: the lowest entry that fails, with its reason, or none (R16, R179). -/
def validate (mgmt : Addr7) (t : Table) : Option (Fin 32 × Reason) :=
  (List.finRange 32).findSome? (fun n => (entryFault mgmt (t.toList.take n.val) t[n]).map (fun r => (n, r)))

/-! ## What a commit changes -/

/-- Entry `n` is changed: its content differs in any of the eleven fields (R12). -/
def changed (old new : Table) (n : Fin 32) : Bool := old[n] ≠ new[n]

/-- Target `t` is named by a changed entry, in its old or its new content (R12, R72). -/
def touched (old new : Table) (t : Target) : Bool :=
  (List.finRange 32).any (fun n => changed old new n && (old[n].target = t || new[n].target = t))

/-- Insert a record into the map at its key's place, unless the key is there already. -/
def insertKey (r : CursorRec) : List CursorRec → List CursorRec
  | [] => [r]
  | x :: rest =>
    if r.target.key < x.target.key then r :: x :: rest
    else if r.target.key = x.target.key then x :: rest
    else x :: insertKey r rest

/-- The cursor that the map holds for a target, absent where it holds no key. -/
def cursorOf (m : List CursorRec) (t : Target) : Option Word16 :=
  match findCursor m t with
  | some r => r.cursor
  | none => none

/-- The keys rebuilt from a table: one for each target that an enabled entry of width 1 or 2 names, with that width; a kept key keeps
its cursor and a new key's cursor is absent (R71). -/
def rebuildKeys (t : Table) (m : List CursorRec) : List CursorRec :=
  t.toList.foldl (fun acc e =>
    if e.enabled && e.width ≠ .zero then insertKey ⟨e.target, e.width, cursorOf m e.target⟩ acc else acc) []

/-- A commit completion's cursor map: keys rebuilt, then the cursors of touched targets made absent (R71, R72). -/
def committedCursors (old new : Table) (m : List CursorRec) : List CursorRec :=
  clearCursors (touched old new) (rebuildKeys new m)

/-- The counters after a commit completion: zero for each changed entry (R12, R23). -/
def committedCounters (old new : Table) (cs : Vector Counters 32) : Vector Counters 32 :=
  Vector.ofFn (fun n => if changed old new n then Counters.zero else cs[n])

/-- A commit completion marks detached a context that holds a target which a changed entry names, or whose access record names a changed
entry (R12, R66). -/
def detachedByCommit (old new : Table) (a : Access) : Bool :=
  changed old new a.entryNo || (a.held.isSome && touched old new a.copy.target)

/-- Mark an access detached where `f` says so (R66). -/
def detachWhere (f : Access → Bool) (c : Context) : Context :=
  { c with access := c.access.map (fun a => if f a then { a with detached := true } else a) }

/-- Mark detached the contexts of both ports whose access `f` picks (R66). -/
def detachContexts (f : Access → Bool) (s : State) : State :=
  (s.setCtx .A (detachWhere f (s.ctx .A))).setCtx .B (detachWhere f (s.ctx .B))

end Sys2Proof.Machine
end

