-- ==== Sys2Proof/Machine/Arbiter.lean ====
section
/-! DEFINITION. The segment arbiter and what leaves and enters a segment: requests, waits, grants, OPENING, the end of a close or of a
recovery, configuration changes and leases (chapters 5 and 6). -/

namespace Sys2Proof.Machine

/-! ## Grant and OPENING -/

/-- The START of access `a`, or the repeated START where `again` says so, and the translated address that follows it: the copy's downstream
address with the access's direction (R5, R48). -/
def openingTransfer (again : Bool) (a : Access) : Transfer := .start again a.copy.downAddr a.dir

/-- The controller of segment `d` begins OPENING for its holder's access `a`. While the NAK of a byte is still in flight the START waits for
its end (R90, log 15). SDA found low starts the bus-clear inside OPENING (R101); else a START on an idle bus, or a repeated START on
an open one, is in flight with the translated address (R48). -/
def beginOpening (d : Seg) (sda : Line) (a : Access) (s : State) : State :=
  let g := s.seg d
  s.setSeg d
    (if g.transfer = some .nak then { g with openAfter := true }
     else match sda with
      | .low => { g with transfer := some .busClear, openAfter := false }
      | .high => { g with transfer := some (openingTransfer (g.bus = .opened) a), bus := .opened, openAfter := false })

/-- Port `p`'s context holds segment `d` from this moment with the working cursor `cursor` (R42, R47). -/
def beginHold (p : Port) (d : Seg) (cursor : Option Word16) (a : Access) (s : State) : State :=
  s.setCtx p ⟨(s.ctx p).state, some { a with held := some d, cursor := cursor }, none⟩

/-- An IDLE segment is granted to port `p`'s context: the cursor is loaded, and a read makes step 4. On a pass OPENING begins; on a refusal
nothing is driven, the loaded cursor is handed back, and the close of the idle bus ends at once (R47, R91, R110). -/
def grant (p : Port) (d : Seg) (sda : Line) (s : State) : State :=
  match (s.ctx p).access with
  | none => s
  | some a =>
    let cursor := loadCursor s.cursors a.copy
    match stepFour a cursor with
    | none =>
      let s1 := s.setSeg d { s.seg d with state := .held, holder := some p, bus := .idle, transfer := none, openAfter := false }
      beginOpening d sda a (setState p .opening (beginHold p d cursor a s1))
    | some (k, index) =>
      giveUp p cursor (refuse p k index 0 (beginHold p d cursor a s))

/-- Port `p`'s context keeps the segment `d` that it retained across a repeated START: it counts as granted, the cursor is loaded for the
new copy, and a read makes step 4. On a refusal the loaded cursor is handed back and the close of the open bus requested; the record, the
denied claim and the NAK follow at the release (R47, R64, R91, log 23). -/
def keepSegment (p : Port) (d : Seg) (sda : Line) (s : State) : State :=
  match (s.ctx p).access with
  | none => s
  | some a =>
    let cursor := loadCursor s.cursors a.copy
    let s1 := beginHold p d cursor a s
    match stepFour a cursor with
    | none => beginOpening d sda a (setState p .opening s1)
    | some (k, index) => awaitRelease p d (.refused k index) (giveUp p cursor s1)

/-! ## Requests (R110 to R112) -/

/-- A lease on the segment bars port `p`: it names the other port (R113, R116). -/
def barred (g : Segment) (p : Port) : Bool :=
  match g.lease with
  | none => false
  | some l => l.holder ≠ p

/-- Port `p`'s context waits for segment `d` under its hold limit, or is refused SEGMENT_BUSY at once for a limit of 0 (R110, R111). -/
def waitOrBusy (p : Port) (d : Seg) (s : State) : State :=
  if s.holdLimit p = 0 then refuse p .segmentBusy none 0 s
  else
    setState p .waiting
      (s.setSeg d { s.seg d with waiters := (s.seg d).waiters ++ [⟨p, s.holdLimit p, s.now⟩] })

/-- Port `p`'s context requests segment `d` (R45, R92, R110). A request during a close is kept for the close end (log 18), and so is one
while a bus-clear inside OPENING runs on after a SOFT RESET: it is answered when the segment leaves HELD, and no hold limit runs for it
(log 24). -/
def request (p : Port) (d : Seg) (sda : Line) (s : State) : State :=
  let g := s.seg d
  match g.state with
  | .disabled => refuse p .segmentDown none 0 s
  | .fault => refuse p .segmentDown none 0 s
  | .idle => if barred g p then waitOrBusy p d s else grant p d sda s
  | .recovering => waitOrBusy p d s
  | .held =>
    if g.holder = none then s.setSeg d { g with requests := g.requests ++ [p] }
    else waitOrBusy p d s

/-- Take a waiter off segment `d`'s list (R111). -/
def dropWaiter (d : Seg) (p : Port) (s : State) : State :=
  s.setSeg d { s.seg d with waiters := (s.seg d).waiters.filter (fun w => w.port ≠ p) }

/-- Answer one waiter of segment `d`: granted where the segment is IDLE and no lease bars it, else it stays (R113). -/
def answerWaiter (d : Seg) (sda : Line) (s : State) (w : Waiter) : State :=
  let g := s.seg d
  if g.state = .idle && !barred g w.port then grant w.port d sda (dropWaiter d w.port s) else s

/-- Examine the waiter list in the order in which the waits began. A grant takes the segment from IDLE, so the waiters after it stay,
unless the grant is refused at step 4 and leaves it IDLE again (R113, R114). The records of the answers come in that order (log 8). -/
def answerWaiters (d : Seg) (sda : Line) (s : State) : State :=
  (s.seg d).waiters.foldl (answerWaiter d sda) s

/-- The SEGMENT_DOWN records of the contexts of the ports `ps` (R46, R65). -/
def downRecords (ps : List Port) (s : State) : List Report :=
  ps.filterMap (fun p => (s.ctx p).access.map (fun a => accessReport s p a .segmentDown none 0))

/-- The contexts of the ports `ps` are refused with SEGMENT_DOWN at once; their records and `extra` are handed to the log together, in an
order left open (R97, R99, R128, log 8). -/
def refuseDown (ps : List Port) (extra : List Report) (s : State) : State :=
  handTogether (downRecords ps s ++ extra) (ps.foldl (fun t p => refuseSilently p t) s)

/-- The ports whose contexts wait for the segment, in the order in which the waits began (R108). -/
def Segment.waiting (g : Segment) : List Port := g.waiters.map Waiter.port

/-- The ports whose contexts wait for the segment or have a request kept by it (R92, R108). -/
def Segment.asking (g : Segment) : List Port := g.waiting ++ g.requests

/-- The requests made during a close are taken up in their order, each against the segment as the earlier answers left it (R92). The records
of the answers come in that order (log 8). -/
def takeUpRequests (d : Seg) (sda : Line) (s : State) : State :=
  (s.seg d).requests.foldl (fun t p => request p d sda t) (s.setSeg d { s.seg d with requests := [] })

/-! ## Leaving HELD and RECOVERING (R91, R97, R99) -/

/-- The configuration in force once a pending one is applied (R97). -/
def Segment.applied (g : Segment) : SegConfig := g.pendingConfig.getD g.config

/-- A pending configuration with enable off is present (R97). -/
def Segment.pendsOff (g : Segment) : Bool :=
  match g.pendingConfig with
  | none => false
  | some c => !c.enable

/-- Segment `d` leaves HELD or RECOVERING in order. Without a pending enable off it is IDLE, its waiters are answered, then the requests taken
up (R91, R92, R113). Under one it is DISABLED without a lease, and all of them are refused at once (R92, R97, log 8). -/
def leaveInOrder (d : Seg) (sda : Line) (s : State) : State :=
  let g := s.seg d
  let g1 : Segment := { g with
    state := .idle
    holder := none
    bus := .idle
    transfer := none
    openAfter := false
    config := g.applied
    pendingConfig := none }
  if g.pendsOff then
    refuseDown g.asking [] (s.setSeg d { g1 with state := .disabled, lease := none, waiters := [], requests := [] })
  else takeUpRequests d sda (answerWaiters d sda (s.setSeg d g1))

/-- A recovery of segment `d` fails: FAULT, or DISABLED under a pending enable off; the lease is removed, the record `stuck` is made, and the
waiters, with the requests kept while a bus-clear inside OPENING ran on after a SOFT RESET, are refused at once; the order of all these records
is left open (R92, R97, R99, R128, logs 8, 24). -/
def leaveInFault (d : Seg) (stuck : List Report) (s : State) : State :=
  let g := s.seg d
  let g1 : Segment := { g with
    state := if g.pendsOff then .disabled else .fault
    holder := none
    bus := .idle
    transfer := none
    openAfter := false
    config := g.applied
    pendingConfig := none
    lease := none
    waiters := []
    requests := [] }
  refuseDown g.asking stuck (s.setSeg d g1)

/-- Segment `d` enters RECOVERING from a stall: no holder, the transfer abandoned, lease, waiters and pending configuration kept; requests
made during a close become requests on a RECOVERING segment (R92, R94). -/
def enterStalled (d : Seg) (s : State) : State :=
  let g := s.seg d
  takeUpRequests d .high
    (s.setSeg d { g with state := .recovering, holder := none, bus := .opened, transfer := none, openAfter := false })

/-- Bus-clear inside OPENING fails for port `p`'s context, which was not aborted: STUCK, denied, NAK, an absent cursor handed back, and
the segment leaves in FAULT (R77, R99, R101). -/
def openingFails (p : Port) (d : Seg) (s : State) : State :=
  match (s.ctx p).access with
  | none => leaveInFault d [segmentReport s d] s
  | some a =>
    leaveInFault d [accessReport s p a .stuck (recordIndex a) 0] (giveUp p none (refuseSilently p s))

/-- Bus-clear inside OPENING ends with SDA released: the holder's START is driven, never a repeated one, since the recovery's STOP has left
the bus idle; with no holder left, the segment leaves as at the end of a recovery without an access (R69, R101). -/
def openingClears (d : Seg) (sda : Line) (s : State) : State :=
  let g := s.seg d
  match holderAccess d s with
  | some (_, a) => s.setSeg d { g with transfer := some (openingTransfer false a), bus := .opened }
  | none => leaveInOrder d sda s

/-- Bus-clear inside OPENING fails (R69, R99, R101). -/
def openingStuck (d : Seg) (s : State) : State :=
  match (s.seg d).holder with
  | some p => openingFails p d s
  | none => leaveInFault d [segmentReport s d] s

/-! ## Configuration, recovery and leases -/

/-- A bus-clear recovery begins on a segment that no context holds (R98, R104). -/
def Segment.recover (g : Segment) : Segment :=
  { g with state := .recovering, holder := none, bus := .idle, transfer := none, openAfter := false }

/-- CONFIGURE SEGMENT with valid settings: applied at once, or pended while HELD or RECOVERING (R95, R96). -/
def configure (d : Seg) (c : SegConfig) (s : State) : State :=
  let g := s.seg d
  match g.state with
  | .held => s.setSeg d { g with pendingConfig := some c }
  | .recovering => s.setSeg d { g with pendingConfig := some c }
  | .idle =>
    if c.enable then s.setSeg d { g with config := c }
    else refuseDown g.waiting [] (s.setSeg d { g with config := c, state := .disabled, lease := none, waiters := [] })
  | .disabled =>
    if c.enable then s.setSeg d ({ g with config := c }.recover) else s.setSeg d { g with config := c }
  | .fault =>
    if c.enable then s.setSeg d ({ g with config := c }.recover)
    else refuseDown g.waiting [] (s.setSeg d { g with config := c, state := .disabled, lease := none, waiters := [] })

/-- The lease of segment `d` ends: removed, and on an IDLE segment the waiter list is examined (R117, R118). -/
def endLease (d : Seg) (sda : Line) (s : State) : State :=
  let s1 := s.setSeg d { s.seg d with lease := none }
  if (s.seg d).state = .idle then answerWaiters d sda s1 else s1

end Sys2Proof.Machine
end

