-- ==== Sys2Proof/Machine/Staging.lean ====
section
/-! DEFINITION. The staging unit: ownership, edits, the beginning and the completion of a commit, abandonment (chapter 10), and the
writing of result records (R144). -/

namespace Sys2Proof.Machine

/-- A frame's end writes port `p`'s result record and advances its frame serial (R144). -/
def writeResult (p : Port) (code : Byte) (r : Result) (s : State) : State :=
  s.setMgmt p { s.mgmt p with result := ⟨code, r, (s.mgmt p).result.serial + 1⟩ }

/-- A commit's end writes port `p`'s result record with the COMMIT code and keeps the serial (R144). -/
def writeCommitResult (p : Port) (r : Result) (s : State) : State :=
  s.setMgmt p { s.mgmt p with result := ⟨commandCode .commit, r, (s.mgmt p).result.serial⟩ }

/-- The end of a good-check frame of port `p` restarts the ownership idle timer where `p` is the owner (R148, R174). -/
def goodCheckNotice (p : Port) (s : State) : State :=
  if s.staging.state = .owned p then s.setStaging { s.staging with timer := .counting s.now } else s

/-- Reload the image from the active table and leave the unit FREE with its timer stopped (R171). -/
def freeStaging (s : State) : State :=
  s.setStaging { s.staging with image := s.active, state := .free, timer := .stopped }

/-- STAGE ENTRY's write, in OWNED by the issuing port or taking ownership in FREE (R172, R173). -/
def stage (p : Port) (n : Fin 32) (mask : Word16) (i : EntryImage) (s : State) : State :=
  let g := s.staging
  s.setStaging { g with
    image := g.image.set n (stageFields mask i g.image[n])
    state := .owned p
    timer := if g.state = .free then .counting s.now else g.timer }

/-- Validation of the staging image as it stands (R179). -/
def validation (s : State) : Option (Fin 32 × Reason) := validate s.mgmtAddr s.staging.image

/-- The valid completion of a commit from port `p` (R180). -/
def completeValid (p : Port) (s : State) : State :=
  let old := s.active
  let new := s.staging.image
  let s1 := detachContexts (detachedByCommit old new) s
  writeCommitResult p .done
    { s1 with
      active := new
      generation := s.generation + 1
      counters := committedCounters old new s.counters
      cursors := committedCursors old new s.cursors
      staging := { s.staging with outcome := .done, state := .free, timer := .stopped } }

/-- The invalid completion of a commit from port `p`: entry `n` fails for reason `r` (R181). -/
def completeInvalid (p : Port) (n : Fin 32) (r : Reason) (s : State) : State :=
  writeCommitResult p (.rejected (.entry n r))
    (s.setStaging { s.staging with outcome := .rejected n r, state := .owned p, timer := .counting s.now })

/-- The completion of the commit of port `p` (R179). -/
def complete (p : Port) (s : State) : State :=
  match validation s with
  | none => completeValid p s
  | some (n, r) => completeInvalid p n r s

/-- SOFT RESET from port `p` on the staging unit: a commit in flight is abandoned, with REJECTED and ABANDONED written for the other port
only; OWNED is ended; FREE is left as it is (R182). -/
def softResetStaging (p : Port) (s : State) : State :=
  match s.staging.state with
  | .free => s
  | .owned _ => freeStaging s
  | .committing q =>
    let s1 := freeStaging (s.setStaging { s.staging with outcome := .abandoned })
    if q = p then s1 else writeCommitResult q (.rejected .abandoned) s1

end Sys2Proof.Machine
end

