-- ==== Sys2Proof/Machine/Commands.lean ====
section
/-! DEFINITION. The management commands: what each does and the result it gives once its frame is complete and good (chapter 9), and the
order of decisions around it (R153). -/

namespace Sys2Proof.Machine

/-- SELECT VIEW (R155). -/
def runSelectView (p : Port) (view arg offset : Byte) (s : State) : State × Result :=
  match viewOf view arg with
  | none => (s, .invalid)
  | some v => (s.setMgmt p { s.mgmt p with selection := ⟨v, offset.toNat⟩ }, .done)

/-- The check state of port `p` cleared: no first-error record, failure count 0, NORMAL (R147). -/
def clearCheck (p : Port) (s : State) : State :=
  s.setMgmt p { s.mgmt p with firstError := none, failures := 0, guard := .normal }

/-- CLEAR ERROR (R156). -/
def runClearError (p : Port) (s : State) : State × Result := (clearCheck p s, .done)

/-- SET CHECK MODE (R157). -/
def runSetCheckMode (p : Port) (mode : Byte) (s : State) : State × Result :=
  match modeOf mode with
  | none => (s, .invalid)
  | some m => (s.setMgmt p { s.mgmt p with mode := m }, .done)

/-- SET HOLD LIMIT (R158). -/
def runSetHoldLimit (p : Port) (limit : Byte) (s : State) : State × Result :=
  if limit.toNat ≤ 50 then (s.setHoldLimit p limit.toNat, .done) else (s, .invalid)

/-- CONFIGURE SEGMENT (R159). -/
def runConfigureSegment (seg speed stall enable : Byte) (s : State) : State × Result :=
  match segOf seg, configOf speed stall enable with
  | some d, some c => (configure d c s, .done)
  | _, _ => (s, .invalid)

/-- RECOVER SEGMENT (R104, R160). -/
def runRecoverSegment (seg : Byte) (s : State) : State × Result :=
  match segOf seg with
  | none => (s, .invalid)
  | some d => match (s.seg d).state with
    | .idle => (s.setSeg d (s.seg d).recover, .done)
    | .fault => (s.setSeg d (s.seg d).recover, .done)
    | .held => (s, .busy)
    | .recovering => (s, .busy)
    | .disabled => (s, .busy)

/-- A segment that can bear a lease: not DISABLED and not in FAULT (R115). -/
def leasable (g : Segment) : Bool := g.state ≠ .disabled && g.state ≠ .fault

/-- LEASE SEGMENT: created or renewed for the issuing port from this moment, or refused (R115, R161). -/
def runLeaseSegment (p : Port) (seg : Byte) (duration : Word16) (s : State) : State × Result :=
  match segOf seg with
  | none => (s, .invalid)
  | some d =>
    if duration.toNat = 0 ∨ 2000 < duration.toNat then (s, .invalid)
    else if !leasable (s.seg d) then (s, .busy)
    else if barred (s.seg d) p then (s, .owned)
    else (s.setSeg d { s.seg d with lease := some ⟨p, s.now + duration.toNat⟩ }, .done)

/-- RELEASE LEASE: the issuing port's own lease ends as at an expiry (R118, R162). -/
def runReleaseLease (p : Port) (seg : Byte) (sda : Line) (s : State) : State × Result :=
  match segOf seg with
  | none => (s, .invalid)
  | some d => match (s.seg d).lease with
    | none => (s, .done)
    | some l => if l.holder = p then (endLease d sda s, .done) else (s, .owned)

/-- The log after the removal of the record with sequence `q` and of every older one; none where no such record is held (R129). -/
def acknowledged (q : Word16) : List Violation → Option (List Violation)
  | [] => none
  | v :: rest => if v.sequence = q then some rest else acknowledged q rest

/-- ACKNOWLEDGE LOG (R129, R163). -/
def runAcknowledgeLog (q : Word16) (s : State) : State × Result :=
  match acknowledged q s.log.records with
  | none => (s, .range)
  | some rest => (s.setLog { s.log with records := rest }, .done)

/-- CLEAR COUNTERS (R23, R164). -/
def runClearCounters (entry : Byte) (s : State) : State × Result :=
  match entrySelOf entry with
  | none => (s, .invalid)
  | some (.one n) => (countEntry n (fun _ => .zero) s, .done)
  | some .all => (s.setCounters (Vector.replicate 32 Counters.zero), .done)

/-- INVALIDATE CURSOR for one entry of the active table: its target's cursor, if the target holds a key, becomes absent and a context
holding the target is detached (R83). -/
def invalidateEntry (e : Entry) (s : State) : State :=
  if e.width = .zero || (findCursor s.cursors e.target).isNone then s
  else
    detachContexts (fun a => a.held.isSome && a.copy.target = e.target)
      (s.setCursors (clearCursors (fun t => t = e.target) s.cursors))

/-- INVALIDATE CURSOR for all targets: every cursor absent, every context that holds a target detached (R84, log 13). -/
def invalidateAll (s : State) : State :=
  detachContexts (fun a => a.held.isSome) (s.setCursors (clearCursors (fun _ => true) s.cursors))

/-- INVALIDATE CURSOR (R83, R84, R165). -/
def runInvalidateCursor (entry : Byte) (s : State) : State × Result :=
  match entrySelOf entry with
  | none => (s, .invalid)
  | some (.one n) => (invalidateEntry s.active[n] s, .done)
  | some .all => (invalidateAll s, .done)

/-- SET ATTENTION MASK (R133, R166). -/
def runSetAttentionMask (mask : Byte) (s : State) : State × Result :=
  match maskOf mask with
  | none => (s, .invalid)
  | some m => (s.setMask m, .done)

/-- STAGE ENTRY: arguments, then the staging state (R167, R168, R172, R173). -/
def runStageEntry (p : Port) (entry : Byte) (mask : Word16) (i : EntryImage) (s : State) : State × Result :=
  match entryOf entry with
  | none => (s, .invalid)
  | some n =>
    if !stageArgsOk mask i then (s, .invalid)
    else match s.staging.state with
      | .free => (stage p n mask i s, .done)
      | .owned q => if q = p then (stage p n mask i s, .done) else (s, .owned)
      | .committing _ => (s, .busy)

/-- REVERT STAGING (R167, R175). -/
def runRevertStaging (p : Port) (s : State) : State × Result :=
  match s.staging.state with
  | .free => (s, .owned)
  | .owned q => if q = p then (s.setStaging { s.staging with image := s.active }, .done) else (s, .owned)
  | .committing _ => (s, .busy)

/-- DISCARD STAGING (R167, R176). -/
def runDiscardStaging (p : Port) (s : State) : State × Result :=
  match s.staging.state with
  | .free => (s, .owned)
  | .owned q => if q = p then (freeStaging s, .done) else (s, .owned)
  | .committing _ => (s, .busy)

/-- COMMIT: the commit begins (R167, R177). -/
def runCommit (p : Port) (s : State) : State × Result :=
  match s.staging.state with
  | .free => (s, .owned)
  | .owned q =>
    if q = p then (s.setStaging { s.staging with state := .committing p, timer := .stopped }, .pending) else (s, .owned)
  | .committing _ => (s, .busy)

/-! ## SOFT RESET (R68, R69, R107, R120, R169) -/

/-- A traffic access aborted: detached, holding nothing, in state `st` (R66, R68). -/
def Context.aborted (c : Context) (st : CtxState) : Context :=
  ⟨st, c.access.map (fun a => { a with detached := true, held := none }), none⟩

/-- Close request on the segment that port `q`'s context holds, if any (R68, R107). -/
def closeHeld (q : Port) (tail : Option Transfer) (s : State) : State :=
  match (s.ctx q).segment? with
  | none => s
  | some d => closeRequest d tail s

/-- SOFT RESET finds port `q`'s context in WRITE_INDEX or WRITE_DATA: with the clock held the byte in flight is NAKed, else the next written byte
reads as NAK; in the retained interval the context is IDLE (R68). -/
def abortWrite (q : Port) (s : State) : State :=
  let c := s.ctx q
  if c.retained.isSome then toIdle q (closeHeld q none s)
  else
    (if (s.fe q).hold then answer q .nak (closeHeld q none s) else releaseLines q (closeHeld q none s)).setCtx q
      (c.aborted .refusing)

/-- SOFT RESET finds port `q`'s context in READ_DATA: a byte being delivered completes and its target is given NAK on it; a byte being
fetched is replaced by 0xFF, and so is byte 0 where the ninth bit of the address is still to be clocked (R68, R69, log 26). -/
def abortRead (q : Port) (s : State) : State :=
  (if delivering q s then closeHeld q (some .nak) s else deliver q 0xFF#8 (closeHeld q none s)).setCtx q
    ((s.ctx q).aborted .filler)

/-- SOFT RESET finds port `q`'s context in READ_END (R68). -/
def abortReadEnd (q : Port) (s : State) : State :=
  let c := s.ctx q
  if c.retained.isSome then toIdle q (closeHeld q none s)
  else (closeHeld q none s).setCtx q (c.aborted .refusing)

/-- The address of port `q` is NAKed and its access aborted (R68). -/
def abortAddress (q : Port) (s : State) : State :=
  (answer q .nak (closeHeld q none s)).setCtx q ((s.ctx q).aborted .refusing)

/-- The management read of port `q` goes on from its snapshot, but its advances are no longer stored (R68, R152). -/
def unstoreRead (q : Port) (s : State) : State :=
  s.setMgmt q { s.mgmt q with reading := (s.mgmt q).reading.map (fun r => { r with stored := false }) }

/-- SOFT RESET finds port `q`'s context in MATCH (R68). An address byte that matched no entry and waits for the release of the segment it gave
up has no access to abort: the close goes on (R107), and its outcome follows (log 23). -/
def abortMatch (q : Port) (s : State) : State :=
  if (s.ctx q).access.isNone then s else abortAddress q s

/-- SOFT RESET's effect on the context of the port `q` that did not issue it (R68). -/
def abortContext (q : Port) (s : State) : State :=
  match (s.ctx q).state with
  | .idle => s
  | .unaddressed => s
  | .filler => s
  | .refusing => s
  | .matching => abortMatch q s
  | .waiting => abortAddress q s
  | .opening => abortAddress q s
  | .writeIndex => abortWrite q s
  | .writeData => abortWrite q s
  | .readData => abortRead q s
  | .readEnd => abortReadEnd q s
  | .mgmtWrite => s
  | .mgmtRead => unstoreRead q s

/-- The address byte that waits for a release matched an entry: it has an access, which SOFT RESET aborts (R64, R68). -/
def Resume.hasAccess (r : Resume) : Bool :=
  match r.outcome with
  | .refused _ _ => true
  | .request _ => true
  | _ => false

/-- SOFT RESET on one arbiter: waiters and requests cancelled, the lease removed, and the answer of an aborted access no longer awaited (R68,
R120). -/
def resetArbiter (s : State) (d : Seg) : State :=
  s.setSeg d { s.seg d with
    waiters := [], requests := [], lease := none, resume := (s.seg d).resume.filter (fun r => !r.hasAccess) }

/-- SOFT RESET on one port's management unit: check failures cleared, view selection STATUS, 0, 0 (R147, R149). -/
def resetUnit (s : State) (q : Port) : State :=
  clearCheck q (s.setMgmt q { s.mgmt q with selection := ⟨.status, 0⟩ })

/-- SOFT RESET from port `p` (R169). -/
def runSoftReset (p : Port) (s : State) : State × Result :=
  let s1 := (List.finRange 4).foldl resetArbiter (abortContext (other p) s)
  let s2 := softResetStaging p s1
  let s3 := (s2.setCursors (clearCursors (fun _ => true) s2.cursors)).setCounters (Vector.replicate 32 Counters.zero)
  let s4 := s3.setLog { s3.log with records := [], dropped := 0 }
  (resetUnit (resetUnit s4 .A) .B, .done)

/-! ## Carrying out a command (R153) -/

/-- What a command does and gives once neither guard stops it; `sda` is for RELEASE LEASE's grant (log 4). -/
def runCommand (p : Port) (c : Command) (sda : Line) (s : State) : State × Result :=
  match c with
  | .selectView v a o => runSelectView p v a o s
  | .clearError => runClearError p s
  | .setCheckMode m => runSetCheckMode p m s
  | .setHoldLimit h => runSetHoldLimit p h s
  | .configureSegment d v t e => runConfigureSegment d v t e s
  | .recoverSegment d => runRecoverSegment d s
  | .leaseSegment d w => runLeaseSegment p d w s
  | .releaseLease d => runReleaseLease p d sda s
  | .acknowledgeLog q => runAcknowledgeLog q s
  | .clearCounters n => runClearCounters n s
  | .invalidateCursor n => runInvalidateCursor n s
  | .setAttentionMask m => runSetAttentionMask m s
  | .stageEntry n m i => runStageEntry p n m i s
  | .revertStaging => runRevertStaging p s
  | .discardStaging => runDiscardStaging p s
  | .commit => runCommit p s
  | .softReset => runSoftReset p s

/-- A complete and good frame of port `p` is taken: the guard decides first, then the command; the result is written, the serial advances,
and the good check is told to the staging unit (R143, R144, R146, R148, R153). -/
def takeFrame (p : Port) (c : Command) (sda : Line) (s : State) : State :=
  let r :=
    if (s.mgmt p).guard = .guarded && !allowedGuarded c then (s, Result.guarded)
    else runCommand p c sda s
  goodCheckNotice p (writeResult p (commandCode c) r.2 r.1)

/-- The row of a management command: one complete and good frame of port `p` is carried out, where the port's context is at rest (log 5). -/
def commandRow (p : Port) (c : Command) (sda : Line) (s : State) : Out :=
  if s.inReset then .next s
  else if (s.fe p).hold || (s.ctx p).state.clockHeld then .fault .clockHeld
  else if (s.ctx p).state = .idle then .next (takeFrame p c sda s)
  else .fault .notInProgress

/-! ## The rows of the table -/

/-- SELECT_VIEW (R155). -/
def execSelectView (p : Port) (view arg offset : Byte) (s : State) : Out :=
  commandRow p (.selectView view arg offset) .high s

/-- CLEAR_ERROR (R156). -/
def execClearError (p : Port) (s : State) : Out := commandRow p .clearError .high s

/-- SET_CHECK_MODE (R157). -/
def execSetCheckMode (p : Port) (mode : Byte) (s : State) : Out := commandRow p (.setCheckMode mode) .high s

/-- SET_HOLD_LIMIT (R158). -/
def execSetHoldLimit (p : Port) (limit : Byte) (s : State) : Out := commandRow p (.setHoldLimit limit) .high s

/-- CONFIGURE_SEGMENT (R159). -/
def execConfigureSegment (p : Port) (seg speed stall enable : Byte) (s : State) : Out :=
  commandRow p (.configureSegment seg speed stall enable) .high s

/-- RECOVER_SEGMENT (R160). -/
def execRecoverSegment (p : Port) (seg : Byte) (s : State) : Out := commandRow p (.recoverSegment seg) .high s

/-- LEASE_SEGMENT (R161). -/
def execLeaseSegment (p : Port) (seg : Byte) (duration : Word16) (s : State) : Out :=
  commandRow p (.leaseSegment seg duration) .high s

/-- RELEASE_LEASE (R162). -/
def execReleaseLease (p : Port) (seg : Byte) (sda : Line) (s : State) : Out := commandRow p (.releaseLease seg) sda s

/-- ACKNOWLEDGE_LOG (R163). -/
def execAcknowledgeLog (p : Port) (sequence : Word16) (s : State) : Out := commandRow p (.acknowledgeLog sequence) .high s

/-- CLEAR_COUNTERS (R164). -/
def execClearCounters (p : Port) (entry : Byte) (s : State) : Out := commandRow p (.clearCounters entry) .high s

/-- INVALIDATE_CURSOR (R165). -/
def execInvalidateCursor (p : Port) (entry : Byte) (s : State) : Out := commandRow p (.invalidateCursor entry) .high s

/-- SET_ATTENTION_MASK (R166). -/
def execSetAttentionMask (p : Port) (mask : Byte) (s : State) : Out := commandRow p (.setAttentionMask mask) .high s

/-- STAGE_ENTRY (R168, R173). -/
def execStageEntry (p : Port) (entry : Byte) (mask : Word16) (image : EntryImage) (s : State) : Out :=
  commandRow p (.stageEntry entry mask image) .high s

/-- REVERT_STAGING (R175). -/
def execRevertStaging (p : Port) (s : State) : Out := commandRow p .revertStaging .high s

/-- DISCARD_STAGING (R176). -/
def execDiscardStaging (p : Port) (s : State) : Out := commandRow p .discardStaging .high s

/-- COMMIT (R177). -/
def execCommit (p : Port) (s : State) : Out := commandRow p .commit .high s

/-- SOFT_RESET (R169). -/
def execSoftReset (p : Port) (s : State) : Out := commandRow p .softReset .high s

end Sys2Proof.Machine
end

