-- ==== Sys2Proof/Machine/Flags.lean ====
section
/-! DEFINITION. The lines whose level is a consequence of state held elsewhere: ATTN_N with its sources (R132, R134), and what the part drives
on a segment's SCL_Dn and SDA_Dn between transfers (R87, R89). -/

namespace Sys2Proof.Machine

/-- The LOG source is active: the log holds a record or has dropped one (R132). -/
def logActive (s : State) : Bool :=
  !s.log.records.isEmpty || s.log.dropped ≠ 0

/-- The CHECK source is active: a port's first-error record is present (R132). -/
def checkActive (s : State) : Bool :=
  (s.mgmt .A).firstError.isSome || (s.mgmt .B).firstError.isSome

/-- The FAULT source is active: a segment is in FAULT (R132). -/
def faultActive (s : State) : Bool :=
  (s.seg 0).state = .fault || (s.seg 1).state = .fault || (s.seg 2).state = .fault || (s.seg 3).state = .fault

/-- ATTN_N is driven low: some source is active and enabled, and RESET_N is not low (R39, R134). -/
def attnLow (s : State) : Bool :=
  !s.inReset &&
    ((s.mask.log && logActive s) || (s.mask.check && checkActive s) || (s.mask.fault && faultActive s))

/-- What the part does on the two lines of a segment. -/
inductive SegLines where
  /-- SCL_Dn and SDA_Dn are released: the part drives nothing. -/
  | released
  /-- The part's own hold between transfers: SCL_Dn low, SDA_Dn released. -/
  | sclHeld
  /-- A transfer, a close or a recovery is driven bit by bit, which the model does not show (log 16). -/
  | clocking
  deriving DecidableEq, Repr

/-- What the controller does on its segment's lines: nothing in DISABLED, IDLE and FAULT; in HELD, SCL_Dn held low from the end of a transfer to
the holder's next request or to the close, where the bus is open, and nothing before the first START (R87, R89). -/
def Segment.lines (g : Segment) : SegLines :=
  match g.state with
  | .recovering => .clocking
  | .held =>
    if g.transfer.isSome || g.bus = .closing then .clocking
    else if g.bus = .opened then .sclHeld
    else .released
  | _ => .released

/-- What the part does on the lines of segment `d`; nothing while RESET_N is low (R87, R89, R103). -/
def segLines (s : State) (d : Seg) : SegLines := if s.inReset then .released else (s.seg d).lines

end Sys2Proof.Machine
end

