-- ==== Sys2Proof/Machine/Views.lean ====
section
/-! DEFINITION. The six views as bytes (R86, R121, R130, R186, R187). -/

namespace Sys2Proof.Machine

/-- Byte 19 of STATUS: the sources in bits 0 to 2 and their enables in bits 4 to 6 (R187). -/
def attentionByte (s : State) : Byte :=
  flagBit (logActive s) 0 ||| flagBit (checkActive s) 1 ||| flagBit (faultActive s) 2 |||
    flagBit s.mask.log 4 ||| flagBit s.mask.check 5 ||| flagBit s.mask.fault 6

/-- Bytes 2 and 3 of STATUS: staging state and owner or committing port (R187). -/
def stagingBytes : StagingState → List Byte
  | .free => [0x00#8, 0x00#8]
  | .owned p => [0x01#8, portCode (some p)]
  | .committing p => [0x02#8, portCode (some p)]

/-- Bytes 4 to 6 of STATUS: last commit outcome, entry and reason (R187). -/
def outcomeBytes : CommitOutcome → List Byte
  | .none => [0x00#8, 0x00#8, 0x00#8]
  | .done => [0x01#8, 0x00#8, 0x00#8]
  | .rejected n r => [0x02#8, BitVec.ofNat 8 n.val, reasonCode r]
  | .abandoned => [0x03#8, 0x00#8, 0x00#8]

/-- Byte 7 of STATUS: check mode, GUARDED, first-error record present (R187). -/
def checkByte (m : MgmtUnit) : Byte :=
  flagBit (m.mode = .persistent) 0 ||| flagBit (m.guard = .guarded) 1 ||| flagBit m.firstError.isSome 2

/-- The lease holder of a segment. -/
def leaseHolder (g : Segment) : Option Port := g.lease.map Lease.holder

/-- One segment's byte of STATUS: state in bits 2..0, lease holder in bits 5..4 (R187). -/
def segmentByte (g : Segment) : Byte := segStateCode g.state ||| (portCode (leaseHolder g) <<< 4)

/-- The STATUS view of port `p`, 26 bytes (R187). -/
def statusView (p : Port) (s : State) : List Byte :=
  let m := s.mgmt p
  wordBytes s.generation ++ stagingBytes s.staging.state ++ outcomeBytes s.staging.outcome ++
    [checkByte m, BitVec.ofNat 8 m.failures] ++ resultBytes m.result ++
    [BitVec.ofNat 8 s.log.records.length] ++ countBytes s.log.dropped ++ wordBytes s.log.next ++
    [attentionByte s] ++ [segmentByte (s.seg 0), segmentByte (s.seg 1), segmentByte (s.seg 2), segmentByte (s.seg 3)] ++
    [BitVec.ofNat 8 (s.holdLimit p), s.mgmtAddr.zeroExtend 8]

/-- The cursor that ACTIVE ENTRY shows for entry `e`: the map's, absent for a width-0 entry (R86). -/
def shownCursor (e : Entry) (s : State) : Option Word16 :=
  match e.width with
  | .zero => none
  | _ => cursorOf s.cursors e.target

/-- A cursor as a presence byte and two bytes (R187). -/
def cursorBytes : Option Word16 → List Byte
  | none => [0x00#8, 0x00#8, 0x00#8]
  | some i => 0x01#8 :: wordBytes i

/-- The ACTIVE ENTRY view of entry `n`, 20 bytes (R187). -/
def activeEntryView (n : Fin 32) (s : State) : List Byte :=
  imageBytes (entryImage s.active[n]) ++ cursorBytes (shownCursor s.active[n] s) ++
    countBytes s.counters[n].accepted ++ countBytes s.counters[n].denied

/-- The STAGED ENTRY view of entry `n`, 13 bytes (R187). -/
def stagedEntryView (n : Fin 32) (s : State) : List Byte := imageBytes (entryImage s.staging.image[n])

/-- The 12 bytes of a violation record (R186). -/
def violationBytes (v : Violation) : List Byte :=
  let r := v.report
  wordBytes v.sequence ++ [kindCode r.kind] ++
    [(portCode r.port <<< 6) ||| (dirCode r.dir <<< 4) ||| flagBit r.index.isSome 0] ++
    [match r.upAddr with
      | some x => x.zeroExtend 8
      | none => 0xFF#8] ++
    [match r.entry with
      | some n => BitVec.ofNat 8 n.val
      | none => 0xFF#8] ++
    [BitVec.ofNat 8 r.segment.val] ++ wordBytes (r.index.getD 0) ++ wordBytes r.generation ++ [BitVec.ofNat 8 r.offset]

/-- The LOG view: count of records, dropped count, and the records oldest first (R130, R187). -/
def logView (s : State) : List Byte :=
  [BitVec.ofNat 8 s.log.records.length] ++ countBytes s.log.dropped ++ (s.log.records.map violationBytes).flatten

/-- The FIRST ERROR view of port `p`, 6 bytes (R187). -/
def firstErrorView (p : Port) (s : State) : List Byte :=
  match (s.mgmt p).firstError with
  | none => [0x00#8, 0x00#8, 0x00#8, 0x00#8, 0x00#8, 0x00#8]
  | some e =>
    [0x01#8, BitVec.ofNat 8 (s.mgmt p).failures, e.command, e.received, e.computed, BitVec.ofNat 8 e.bytes]

/-- The three bytes of a configuration (R187). -/
def configBytes (c : SegConfig) : List Byte := [speedCode c.speed, BitVec.ofNat 8 c.stall, flagBit c.enable 0]

/-- The remaining time in ms that a view shows for a segment's lease: from the model's moment to the lease's expiry, at least 1 while the
lease is present, and 0 where there is none (R121, log 7). -/
def remainingShown (g : Segment) (s : State) : Nat :=
  match g.lease with
  | none => 0
  | some l => max 1 (l.expiry - s.now)

/-- The waiting ports of a segment: bit 0 port A, bit 1 port B (R187). -/
def waitingByte (g : Segment) : Byte :=
  flagBit (g.waiters.any (fun w => w.port = .A)) 0 ||| flagBit (g.waiters.any (fun w => w.port = .B)) 1

/-- The SEGMENT view of segment `d`, 13 bytes (R187). -/
def segmentView (d : Seg) (s : State) : List Byte :=
  let g := s.seg d
  [segStateCode g.state] ++ configBytes g.config ++
    (match g.pendingConfig with
      | none => [0x00#8, 0x00#8, 0x00#8, 0x00#8]
      | some c => 0x01#8 :: configBytes c) ++
    [portCode g.holder, waitingByte g, portCode (leaseHolder g)] ++ countBytes (remainingShown g s)

/-- The bytes of the view that port `p` has selected, as every block stands (R150). -/
def viewBytes (p : Port) (s : State) : List Byte :=
  match (s.mgmt p).selection.view with
  | .status => statusView p s
  | .activeEntry n => activeEntryView n s
  | .stagedEntry n => stagedEntryView n s
  | .log => logView s
  | .firstError => firstErrorView p s
  | .segment d => segmentView d s

/-- The byte of a snapshot at a position. -/
def byteAt (l : List Byte) (n : Nat) : Byte := l.getD n 0xFF#8

end Sys2Proof.Machine
end

