-- ==== Sys2Proof/Machine/Frames.lean ====
section
/-! DEFINITION. Management frames and management reads: the beginning, the bytes and the end of a frame, check failures, snapshots and
the end of a read (chapter 8). -/

namespace Sys2Proof.Machine

/-- A frame with no bytes received: the address byte is folded into the initial value 0xFF (R137, R139). -/
def Frame.start (addr : Addr7) : Frame :=
  { command := none, payload := [], crc := crcFold 0xFF#8 (writeForm addr), matched := false, fault := none }

/-- Replace the frame in assembly of port `p`. -/
def setFrame (p : Port) (f : Option Frame) (s : State) : State :=
  s.setMgmt p { s.mgmt p with frame := f }

/-- A write to the management address begins a frame of port `p` and is acknowledged (R30, R137). -/
def beginFrame (p : Port) (s : State) : State :=
  (answer p .ack (setFrame p (some (Frame.start s.mgmtAddr)) s)).setCtx p ⟨.mgmtWrite, none, none⟩

/-- A check failure of port `p`: an absent first-error record becomes present, the count rises, and STOPPING mode guards the port
(R145). -/
def checkFailure (p : Port) (e : FirstError) (s : State) : State :=
  let m := s.mgmt p
  s.setMgmt p { m with
    firstError := some (m.firstError.getD e)
    failures := satInc Config.byteTop m.failures
    guard := match m.mode with
      | .stopping => .guarded
      | .persistent => m.guard }

/-- The next position of frame `f` of port `p` is a payload byte: its payload is not yet as long as its command fixes (R138). -/
def Frame.wantsPayload (f : Frame) (code : Byte) : Bool :=
  f.payload.length < (payloadLength code).getD 0

/-- Byte `b` arrives at the command position (R138). -/
def takeCommandByte (p : Port) (f : Frame) (b : Byte) (s : State) : State :=
  match payloadLength b with
  | some _ => answer p .ack (setFrame p (some { f with command := some b, crc := crcFold f.crc b }) s)
  | none => answer p .nak (setFrame p (some { f with command := some b, fault := some .unknown }) s)

/-- Byte `b` arrives at the check position (R140). -/
def takeCheckByte (p : Port) (f : Frame) (code b : Byte) (s : State) : State :=
  if b = f.crc then answer p .ack (setFrame p (some { f with matched := true }) s)
  else
    answer p .nak
      (checkFailure p ⟨code, b, f.crc, f.payload.length + 1⟩ (setFrame p (some { f with fault := some .check }) s))

/-- A complete written byte of port `p`'s frame `f`, at the position after the bytes already received (R138, R140, R141). -/
def takeFrameByte (p : Port) (f : Frame) (b : Byte) (s : State) : State :=
  match f.fault, f.command with
  | some _, _ => answer p .nak s
  | none, none => takeCommandByte p f b s
  | none, some code =>
    if f.matched then answer p .nak (setFrame p (some { f with fault := some .length }) s)
    else if f.wantsPayload code then
      answer p .ack (setFrame p (some { f with payload := f.payload ++ [b], crc := crcFold f.crc b }) s)
    else takeCheckByte p f code b s

/-- The end of port `p`'s frame at its STOP or repeated START: its outcome and result, or its execution (R142, R143, R148). -/
def frameEnd (p : Port) (sda : Line) (s : State) : State :=
  match (s.mgmt p).frame with
  | none => s
  | some f =>
    let s1 := setFrame p none s
    match f.command, f.fault with
    | none, _ => writeResult p 0x00#8 .length s1
    | some code, some .unknown => writeResult p code .unknown s1
    | some code, some .check => writeResult p code .check s1
    | some code, some .length => goodCheckNotice p (writeResult p code .length s1)
    | some code, none =>
      if f.matched then
        match commandOf code f.payload with
        | some c => takeFrame p c sda s1
        | none => writeResult p code .length s1
      else writeResult p code .length s1

/-- A frame of port `p` in assembly is discarded by an upstream port reset: not executed, result LENGTH, serial advanced (R35). -/
def discardFrame (p : Port) (s : State) : State :=
  match (s.mgmt p).frame with
  | none => s
  | some f => writeResult p (f.command.getD 0x00#8) .length (setFrame p none s)

/-- Replace the view cursor of port `p`. -/
def setViewCursor (p : Port) (n : Nat) (s : State) : State :=
  s.setMgmt p { s.mgmt p with selection := ⟨(s.mgmt p).selection.view, n⟩ }

/-- Replace the read position of port `p`. -/
def setReading (p : Port) (r : Option ReadPosition) (s : State) : State :=
  s.setMgmt p { s.mgmt p with reading := r }

/-- A read of the management address takes the snapshot of port `p`'s selected view, reduces the view cursor, acknowledges the address and
begins to deliver the byte at the cursor (R150, R151). The ACK of the address and the first bit of that byte are one step (log 16). -/
def takeSnapshot (p : Port) (s : State) : State :=
  let snap := viewBytes p s
  let pos := (s.mgmt p).selection.cursor % snap.length
  let s1 := setReading p (some ⟨snap, pos, true⟩) (setViewCursor p pos s)
  (deliver p (byteAt snap pos) s1).setCtx p ⟨.mgmtRead, none, none⟩

/-- One more snapshot byte of port `p` has been delivered in full: the position advances by one, with wrap, and is stored as the view cursor
unless a SOFT RESET of the other port has ended that (R151, R152). -/
def advanceView (p : Port) (r : ReadPosition) (s : State) : State :=
  let pos := (r.pos + 1) % r.snapshot.length
  setReading p (some { r with pos := pos }) (if r.stored then setViewCursor p pos s else s)

/-- One snapshot byte of port `p` was delivered in full and answered with `a` (R151). -/
def viewAnswer (p : Port) (r : ReadPosition) (a : Ack) (s : State) : State :=
  let s1 := advanceView p r s
  match a with
  | .ack => deliver p (byteAt r.snapshot ((r.pos + 1) % r.snapshot.length)) s1
  | .nak => releaseLines p s1

/-- A condition or a port reset finds port `p` delivering a view byte that has not been answered. The byte counts exactly where the
controller has clocked its eighth bit, which the event's operand `eighth` tells (R35, R151, log 25). -/
def cutOff (p : Port) (eighth : Bool) (s : State) : State :=
  match (s.ctx p).state, (s.mgmt p).reading, (s.fe p).byte with
  | .mgmtRead, some r, .delivering _ => if eighth then advanceView p r s else s
  | _, _, _ => s

/-- A management read of port `p` ends (R152). -/
def endRead (p : Port) (s : State) : State :=
  toIdle p (setReading p none s)

end Sys2Proof.Machine
end

