-- ==== Sys2Proof/Machine/Upstream.lean ====
section
/-! DEFINITION. The upstream events: conditions, bytes, the answers to bytes that the part delivers, and the upstream port reset
(chapters 2 and 3). -/

namespace Sys2Proof.Machine

/-! ## Conditions (R25, R62, R63) -/

/-- A START or repeated START at port `p`'s front end: any byte in progress is discarded, SDA is released, the next byte is an address
byte (R25). -/
def startCondition (p : Port) (s : State) : State :=
  s.setFe p { s.fe p with bus := .active, byte := .none, role := .address, drive := .released }

/-- A STOP at port `p`'s front end (R25). -/
def stopCondition (p : Port) (s : State) : State :=
  s.setFe p { s.fe p with bus := .free, byte := .none, role := .address, drive := .released }

/-- The working cursor that an access hands back when it ends at an upstream condition or a port reset: absent where the write has not
received its whole index (R34, R53). -/
def endingCursor (st : CtxState) (a : Access) : Option Word16 :=
  if st = .writeIndex then none else a.cursor

/-- The NAK that the target still needs where the access `a` ends while byte n is being delivered; none before byte 0 has been fetched
(R34, R62, R63, R91). -/
def endingTail (st : CtxState) (a : Access) : Option Transfer :=
  if st = .readData ∧ a.count ≠ 0 then some .nak else none

/-- A repeated START ends port `p`'s access `a` on segment `d`, which is retained with its bus open: the cursor is handed back, the target
is given NAK on byte n of a read being delivered, and the access record is discarded (R63). -/
def retain (p : Port) (a : Access) (d : Seg) (s : State) : State :=
  let st := (s.ctx p).state
  let s1 := handBack a (endingCursor st a) s
  let s2 := s1.setSeg d { s1.seg d with transfer := (s1.seg d).transfer.or (endingTail st a) }
  s2.setCtx p ⟨if st = .readData then .readEnd else st, none, some d⟩

/-- A repeated START reaches a context of port `p` in WRITE_INDEX, WRITE_DATA, READ_DATA or READ_END. In the retained interval it changes
nothing (R63). -/
def retainHeld (p : Port) (s : State) : State :=
  match (s.ctx p).access with
  | none => s
  | some a => match a.held with
    | none => s
    | some d => retain p a d s

/-- Port `p`'s access that holds a segment, or the retained interval, ends in IDLE: close and release (R62, R63). -/
def endHeld (p : Port) (s : State) : State :=
  let st := (s.ctx p).state
  match (s.ctx p).access with
  | none => toIdle p (dropRetained p s)
  | some a => toIdle p (letGo p (endingCursor st a) (endingTail st a) s)

/-- A repeated START as port `p`'s context and management unit take it (R63, R142, R152). -/
def repeated (p : Port) (sda : Line) (s : State) : State :=
  match (s.ctx p).state with
  | .writeIndex => retainHeld p s
  | .writeData => retainHeld p s
  | .readData => retainHeld p s
  | .readEnd => retainHeld p s
  | .mgmtWrite => frameEnd p sda (toIdle p s)
  | .mgmtRead => endRead p s
  | _ => toIdle p s

/-- A STOP as port `p`'s context and management unit take it (R62, R142, R152). -/
def stopped (p : Port) (sda : Line) (s : State) : State :=
  match (s.ctx p).state with
  | .writeIndex => endHeld p s
  | .writeData => endHeld p s
  | .readData => endHeld p s
  | .readEnd => endHeld p s
  | .mgmtWrite => frameEnd p sda (toIdle p s)
  | .mgmtRead => endRead p s
  | _ => toIdle p s

/-- A START on port `p`: the beginning of a transaction on a FREE bus, a repeated START on an ACTIVE one (R25). -/
def startSeen (p : Port) (sda : Line) (eighth : Bool) (s : State) : State :=
  match (s.fe p).bus with
  | .free => startCondition p s
  | .active => repeated p sda (startCondition p (cutOff p eighth s))

/-- UPSTREAM_START (R25, log 17). -/
def execUpstreamStart (p : Port) (sda : Line) (s : State) (eighth : Bool := false) : Out :=
  upstream p s (fun s => .next (startSeen p sda eighth s))

/-- REPEATED_START (R25, R63, log 17). -/
def execRepeatedStart (p : Port) (sda : Line) (s : State) (eighth : Bool := false) : Out :=
  upstream p s (fun s => .next (startSeen p sda eighth s))

/-- STOP (R25, R62). -/
def execStop (p : Port) (sda : Line) (s : State) (eighth : Bool := false) : Out :=
  upstream p s (fun s =>
    match (s.fe p).bus with
    | .free => .next s
    | .active => .next (stopped p sda (stopCondition p (cutOff p eighth s))))

/-! ## The address byte (R13, R14, R30, R43, R64) -/

/-- The direction of an address byte (R26). -/
def dirOf (b : Byte) : Dir := if b.getLsbD 0 then .read else .write

/-- The 7-bit address of an address byte (R26). -/
def addressOf (b : Byte) : Addr7 := (b >>> 1).setWidth 7

/-- The access record taken at MATCH (R14, R42). -/
def Access.new (n : Fin 32) (e : Entry) (dir : Dir) : Access :=
  { entryNo := n, copy := e, dir := dir, held := none, cursor := none, indexBytes := 0, indexValue := 0, count := 0,
    detached := false }

/-- Port `p`'s address byte is left unanswered (R30, R31). -/
def unanswered (p : Port) (s : State) : State :=
  (answer p .nak s).setCtx p ⟨.unaddressed, none, none⟩

/-- What port `p`'s address byte comes to, where its context, in MATCH with the clock held, retains nothing or no longer does (R30, R43, R45,
R64). -/
def addressOutcome (p : Port) (o : AddressOutcome) (s : State) : State :=
  match o with
  | .unanswered => unanswered p s
  | .frame => beginFrame p s
  | .snapshot => takeSnapshot p s
  | .refused k index => refuse p k index 0 s
  | .request sda => match (s.ctx p).access with
    | none => s
    | some a => request p a.copy.segment sda s

/-- Port `p`'s address byte keeps no segment: `o` follows at once, or, where its context retains a segment, once that has been closed and
released (R44, R64, R91). -/
def settle (p : Port) (o : AddressOutcome) (s : State) : State :=
  match (s.ctx p).retained with
  | none => addressOutcome p o s
  | some d => awaitRelease p d o s

/-- Port `p`'s address byte matched entry `n`: the access record is taken and the checks of the address phase are made in their order
(R43, R44, R64). -/
def matched (p : Port) (n : Fin 32) (dir : Dir) (sda : Line) (s : State) : State :=
  let a := Access.new n s.active[n] dir
  let kept := (s.ctx p).retained
  let s1 := s.setCtx p ⟨.matching, some a, kept⟩
  match firstSteps a with
  | some k => settle p (.refused k none) s1
  | none =>
    if kept = some a.copy.segment then keepSegment p a.copy.segment sda s1
    else settle p (.request sda) s1

/-- The resolution of a complete address byte of port `p`, under a clock hold that begins with it (R13, R28, R30, R64). -/
def resolve (p : Port) (x : Addr7) (dir : Dir) (sda : Line) (s : State) : State :=
  let s1 := (holdClock p s).setCtx p ⟨.matching, none, (s.ctx p).retained⟩
  if x = s.mgmtAddr then
    match dir with
    | .write => settle p .frame s1
    | .read => settle p .snapshot s1
  else if reserved x then settle p .unanswered s1
  else match matchEntry s.active p x with
    | none => settle p .unanswered s1
    | some n => matched p n dir sda s1

/-- The address byte that waits for the release of segment `d` is answered after the segment has left HELD by `leave`, which answers the
waiters and the requests of that segment first (R64, R91, R92, log 8). -/
def afterRelease (d : Seg) (leave : State → State) (s : State) : State :=
  match (s.seg d).resume with
  | none => leave s
  | some r => addressOutcome r.port r.outcome (leave (s.setSeg d { s.seg d with resume := none }))

/-- ADDRESS_BYTE (R13, R26, R30). -/
def execAddressByte (p : Port) (b : Byte) (sda : Line) (s : State) : Out :=
  upstream p s (fun s =>
    if (s.fe p).bus = .active ∧ (s.fe p).role = .address then
      .next (resolve p (addressOf b) (dirOf b) sda (setRole p (dirOf b) s))
    else notTaken p s)

/-! ## Written bytes (R49 to R52, R138 to R141) -/

/-- FRAME_BYTE (R138). -/
def execFrameByte (p : Port) (b : Byte) (s : State) : Out :=
  upstream p s (fun s =>
    match (s.ctx p).state, (s.mgmt p).frame with
    | .mgmtWrite, some f => .next (takeFrameByte p f b s)
    | _, _ => notTaken p s)

/-- Port `p`'s context asks segment `d` for the transfer `t` and holds its clock until the transfer ends (R28, R90). -/
def beginTransfer (p : Port) (d : Seg) (t : Transfer) (s : State) : State :=
  holdClock p (s.setSeg d { s.seg d with transfer := some t })

/-- The access of port `p` and the segment it holds, where its context is in state `st`. -/
def heldIn (p : Port) (st : CtxState) (s : State) : Option (Access × Seg) :=
  if (s.ctx p).state = st then
    match (s.ctx p).access with
    | some a => a.held.map (fun d => (a, d))
    | none => none
  else none

/-- WRITE_INDEX_BYTE: forwarded without checks (R49). -/
def execWriteIndexByte (p : Port) (b : Byte) (s : State) : Out :=
  upstream p s (fun s =>
    match heldIn p .writeIndex s with
    | some (_, d) => .next (beginTransfer p d (.indexByte b) s)
    | none => notTaken p s)

/-- A data byte of port `p` refused without forwarding: record, denied, NAK, and the segment closed and released with the cursor kept
(R52). -/
def refuseDataByte (p : Port) (a : Access) (k : Kind) (s : State) : State :=
  letGo p a.cursor none (refuse p k (recordIndex a) a.count s)

/-- WRITE_DATA_BYTE: checked, then forwarded or refused (R50, R51, R52). -/
def execWriteDataByte (p : Port) (b : Byte) (s : State) : Out :=
  upstream p s (fun s =>
    match heldIn p .writeData s with
    | some (a, d) => match writeCheck a with
      | none => .next (beginTransfer p d (.dataByte b) s)
      | some k => .next (refuseDataByte p a k s)
    | none => notTaken p s)

/-! ## Answers to delivered bytes (R55 to R58, R151) -/

/-- A read of port `p` is cut short: record, denied, NAK to the target on byte n, close and release with the cursor handed back, and 0xFF
delivered (R56). -/
def cutShort (p : Port) (a : Access) (k : Kind) (s : State) : State :=
  setState p .filler (deliver p 0xFF#8 (letGo p a.cursor (some .nak) (penalize p k (recordIndex a) a.count s)))

/-- READ_BYTE_ACK: the next byte is checked, then fetched, or the read is cut short (R55, R56). After a SOFT RESET the answer to the byte in delivery
is FILLER_BYTE_ANSWER (log 26). -/
def execReadByteAck (p : Port) (s : State) : Out :=
  upstream p s (fun s =>
    match heldIn p .readData s with
    | some (a, d) => match readCheck a with
      | none => .next (beginTransfer p d .fetch s)
      | some k => .next (cutShort p a k s)
    | none => notTaken p s)

/-- READ_BYTE_NAK: the target is given NAK on byte n (R57). After a SOFT RESET the answer to the byte in delivery is FILLER_BYTE_ANSWER (log 26). -/
def execReadByteNak (p : Port) (s : State) : Out :=
  upstream p s (fun s =>
    match heldIn p .readData s with
    | some (_, d) => .next (setState p .readEnd (releaseLines p (s.setSeg d { s.seg d with transfer := some .nak })))
    | none => notTaken p s)

/-- FILLER_BYTE_ANSWER. It is also the answer to a fetched byte that SOFT RESET found in delivery, since the context is then in FILLER (R58, R68,
log 26). -/
def execFillerByteAnswer (p : Port) (a : Ack) (s : State) : Out :=
  upstream p s (fun s =>
    if (s.ctx p).state = .filler then
      match a with
      | .ack => .next (deliver p 0xFF#8 s)
      | .nak => .next (setState p .refusing (releaseLines p s))
    else notTaken p s)

/-- VIEW_BYTE_ANSWER (R151). -/
def execViewByteAnswer (p : Port) (a : Ack) (s : State) : Out :=
  upstream p s (fun s =>
    match (s.ctx p).state, (s.mgmt p).reading with
    | .mgmtRead, some r => if delivering p s then .next (viewAnswer p r a s) else notTaken p s
    | _, _ => notTaken p s)

/-! ## The upstream port reset (R33 to R36) -/

/-- Port `p`'s front end after its port reset: as in R24 with the bus FREE, and the timer spent (R33, R34). -/
def resetFrontEnd (p : Port) (s : State) : State :=
  s.setFe p { bus := .free, byte := .none, role := .address, hold := false, drive := .released, timer := .spent }

/-- A port reset in an access of port `p` that holds a segment: UPSTREAM_LOST is recorded with the cursor as handed back, and the access
ends as at a STOP. In the retained interval no record is made (R34, R63, log 12). -/
def loseAccess (p : Port) (s : State) : State :=
  match (s.ctx p).access with
  | none => endHeld p s
  | some a =>
    endHeld p (record p .upstreamLost (recordIndex { a with cursor := endingCursor (s.ctx p).state a }) a.count s)

/-- What the port reset of port `p` does to its context and management unit (R34, R35). -/
def lost (p : Port) (s : State) : State :=
  match (s.ctx p).state with
  | .writeIndex => loseAccess p s
  | .writeData => loseAccess p s
  | .readData => loseAccess p s
  | .readEnd => loseAccess p s
  | .mgmtWrite => discardFrame p (toIdle p s)
  | .mgmtRead => endRead p s
  | _ => toIdle p s

/-- UPSTREAM_BUS_TIMEOUT. A spent timer does not expire again before SCL has been seen high (R33 to R36, log 14). -/
def execUpstreamBusTimeout (p : Port) (s : State) (eighth : Bool := false) : Out :=
  running s (fun s =>
    if (s.fe p).hold || (s.ctx p).state.clockHeld then .fault .clockHeld
    else if (s.fe p).timer = .spent then .next s
    else .next (lost p (resetFrontEnd p (cutOff p eighth s))))

end Sys2Proof.Machine
end

