-- ==== Sys2Proof/Machine/Downstream.lean ====
section
/-! DEFINITION. The events of the downstream segments: targets' answers and bytes, the ends of NAK transfers, closes and recoveries, and
the stall timer (chapters 3 and 5). -/

namespace Sys2Proof.Machine

/-- The transfer in flight on segment `d` has ended. -/
def endTransfer (d : Seg) (s : State) : State :=
  s.setSeg d { s.seg d with transfer := none }

/-- The target refuses a byte of port `p`: record of kind `k`, denied, NAK upstream, and close and release with the cursor `v` handed
back (R48, R49, R51). -/
def refuseByTarget (p : Port) (k : Kind) (index : Option Word16) (offset : Nat) (v : Option Word16) (s : State) : State :=
  letGo p v none (refuse p k index offset s)

/-! ## The target's answers (R48, R49, R51) -/

/-- The state that a context enters on the target's ACK of its write address (R48). -/
def writeStart (e : Entry) : CtxState :=
  match e.width with
  | .zero => .writeData
  | _ => .writeIndex

/-- The target acknowledged the address of port `p`'s access `a` on segment `d`: accepted, ACK; once the controller has clocked
that ninth bit, a read holds the clock, with SDA released, and fetches byte 0 (R20, R27, R28, R48, R54, log 16). -/
def opened (p : Port) (a : Access) (d : Seg) (ninth : Bool) (s : State) : State :=
  let s1 := answer p .ack (claimAccepted p s)
  match a.dir with
  | .write => setState p (writeStart a.copy) s1
  | .read => setState p .readData (if ninth then beginTransfer p d .fetch s1 else s1)

/-- TARGET_ADDRESS_ANSWER. With no holder left, the answer is discarded and the close goes on (R48, R69). -/
def execTargetAddressAnswer (d : Seg) (x : Ack) (s : State) (ninth : Bool := true) : Out :=
  running s (fun s =>
    match (s.seg d).transfer with
    | some (.start _ _ _) =>
      let s1 := endTransfer d s
      match holderAccess d s with
      | none => .next s1
      | some (p, a) => match x with
        | .ack => .next (opened p a d ninth s1)
        | .nak => .next (refuseByTarget p .targetNak (recordIndex a) 0 a.cursor s1)
    | _ => .fault .notInProgress)

/-- The number of index bytes of a width. -/
def IndexWidth.bytes : IndexWidth → Nat
  | .zero => 0
  | .one => 1
  | .two => 2

/-- Port `p`'s access `a` after its target acknowledged the index byte `b`: the byte is added, and the last one makes the working cursor
the index value (R49, R74). -/
def Access.takeIndex (a : Access) (b : Byte) : Access :=
  let v : Word16 := (a.indexValue <<< 8) ||| b.zeroExtend 16
  { a with
    indexBytes := a.indexBytes + 1
    indexValue := v
    cursor := if a.indexBytes + 1 = a.copy.width.bytes then some v else a.cursor }

/-- The target acknowledged the index byte `b` of port `p`'s access `a` (R49). -/
def indexTaken (p : Port) (a : Access) (b : Byte) (s : State) : State :=
  (answer p .ack s).setCtx p
    ⟨if a.indexBytes + 1 = a.copy.width.bytes then .writeData else .writeIndex, some (a.takeIndex b), none⟩

/-- INDEX_BYTE_ANSWER (R49, R69). -/
def execIndexByteAnswer (d : Seg) (x : Ack) (s : State) : Out :=
  running s (fun s =>
    match (s.seg d).transfer with
    | some (.indexByte b) =>
      let s1 := endTransfer d s
      match holderAccess d s with
      | none => .next s1
      | some (p, a) => match x with
        | .ack => .next (indexTaken p a b s1)
        | .nak => .next (refuseByTarget p .dataNak none 0 none s1)
    | _ => .fault .notInProgress)

/-- An access after one more data byte has passed: count and cursor advance (R51, R54, R55, R75). -/
def Access.passed (a : Access) : Access :=
  { a with count := satInc Config.byteTop a.count, cursor := advance a.copy.width a.cursor }

/-- Port `p`'s access becomes `a`; its state and its hold stay. -/
def setAccess (p : Port) (a : Access) (s : State) : State :=
  s.setCtx p { s.ctx p with access := some a }

/-- DATA_BYTE_ANSWER (R51, R69). -/
def execDataByteAnswer (d : Seg) (x : Ack) (s : State) : Out :=
  running s (fun s =>
    match (s.seg d).transfer with
    | some (.dataByte _) =>
      let s1 := endTransfer d s
      match holderAccess d s with
      | none => .next s1
      | some (p, a) => match x with
        | .ack => .next (setAccess p a.passed (answer p .ack s1))
        | .nak => .next (refuseByTarget p .dataNak (recordIndex a) a.count none s1)
    | _ => .fault .notInProgress)

/-- FETCHED_BYTE: counted and delivered; with no holder left, the target is given NAK on it (R54, R55, R69). -/
def execFetchedByte (d : Seg) (b : Byte) (s : State) : Out :=
  running s (fun s =>
    match (s.seg d).transfer with
    | some .fetch => match holderAccess d s with
      | none => .next (s.setSeg d { s.seg d with transfer := some .nak })
      | some (p, a) => .next (deliver p b (setAccess p a.passed (endTransfer d s)))
    | _ => .fault .notInProgress)

/-- NAK_OF_BYTE_END: the transfer ends, and an OPENING that waited for its end begins (R90, log 15). -/
def execNakOfByteEnd (d : Seg) (sda : Line) (s : State) : Out :=
  running s (fun s =>
    match (s.seg d).transfer with
    | some .nak =>
      let s1 := endTransfer d s
      if (s.seg d).openAfter then
        match holderAccess d s with
        | some (_, a) => .next (beginOpening d sda a s1)
        | none => .next s1
      else .next s1
    | _ => .fault .notInProgress)

/-! ## Close, stall and recovery (R91 to R94, R99, R101) -/

/-- CLOSE_END: the STOP of a close has been driven (R64, R91, R92, R97). -/
def execCloseEnd (d : Seg) (sda : Line) (s : State) : Out :=
  running s (fun s =>
    let g := s.seg d
    if g.state = .held ∧ g.holder = none ∧ g.transfer = none then .next (afterRelease d (leaveInOrder d sda) s)
    else .fault .notInProgress)

/-- How the context of port `p` answers upstream to a stall of its segment, by the phase of the stalled transfer (R60). -/
def stallAnswer (p : Port) (s : State) : State :=
  match (s.ctx p).state with
  | .readData => setState p .filler (deliver p 0xFF#8 s)
  | .readEnd => setState p .refusing s
  | _ => setState p .refusing (answer p .nak s)

/-- A stall of a transfer for port `p`'s access `a` on segment `d`: STALL and denied, an absent cursor handed back, the segment RECOVERING,
and the answer upstream (R60, R94). -/
def stallAccess (p : Port) (a : Access) (d : Seg) (s : State) : State :=
  stallAnswer p (enterStalled d (giveUp p none (penalize p .stall (recordIndex a) a.count s)))

/-- A stall on a HELD segment `d`: during bus-clear inside OPENING it fails the recovery; during a transfer for an access it is answered by
the context; in the retained interval and during a close no record is made, and the stall of a close is the release that an address byte may wait for (R60,
R63, R64, R69, R94, R98). -/
def stallHeld (d : Seg) (s : State) : State :=
  if (s.seg d).transfer = some .busClear then openingStuck d s
  else match (s.seg d).holder with
    | none => afterRelease d (enterStalled d) s
    | some p => match (s.ctx p).access with
      | none => toIdle p (enterStalled d s)
      | some a => stallAccess p a d s

/-- The stall timer of a segment can run: in a transfer, in a close, in a recovery (R93). -/
def stallTimed (g : Segment) : Bool :=
  g.state = .recovering || (g.state = .held && (g.transfer.isSome || g.holder.isNone))

/-- STALL_TIMEOUT (R94, R99). -/
def execStallTimeout (d : Seg) (s : State) : Out :=
  running s (fun s =>
    if !stallTimed (s.seg d) then .fault .notInProgress
    else if (s.seg d).state = .recovering then .next (leaveInFault d [segmentReport s d] s)
    else .next (stallHeld d s))

/-- RECOVERY_END with the final sample of SDA (R98, R99). -/
def execRecoveryEnd (d : Seg) (final : Line) (sda : Line) (s : State) : Out :=
  running s (fun s =>
    if (s.seg d).state = .recovering then
      match final with
      | .high => .next (leaveInOrder d sda s)
      | .low => .next (leaveInFault d [segmentReport s d] s)
    else .fault .notInProgress)

/-- OPENING_BUS_CLEAR_END with the final sample of SDA (R69, R99, R101). -/
def execOpeningBusClearEnd (d : Seg) (final : Line) (sda : Line) (s : State) : Out :=
  running s (fun s =>
    if (s.seg d).transfer = some .busClear then
      match final with
      | .high => .next (openingClears d sda s)
      | .low => .next (openingStuck d s)
    else .fault .notInProgress)

end Sys2Proof.Machine
end

