-- ==== Sys2Proof/Machine/Resets.lean ====
section
/-! DEFINITION. POWER_ON, RESET_N_LOW and RESET_N_RELEASE (R2, R24, R37, R38, R103). -/

namespace Sys2Proof.Machine

/-- The value of the straps, MA1 the high bit (R32). -/
def strapValue (ma1 ma0 : Bool) : BitVec 2 := BitVec.ofBool ma1 ++ BitVec.ofBool ma0

/-- A reset release: every piece of state takes its power-on value, and the straps and the upstream clocks are as sampled. The queue and
the model's own counters go on (R37, R38, R103). -/
def release (ma1 ma0 : Bool) (sclA sclB : Line) (s : State) : State :=
  { State.reset with
    straps := strapValue ma1 ma0
    frontEnds := ⟨.powerOn sclA, .powerOn sclB⟩
    now := s.now
    freeCount := s.freeCount
    pending := s.pending }

/-- A segment while RESET_N is low: nothing is driven, no context holds it or waits for it or for its release, and an access, a close or a recovery in
progress has ended, so that only the recovery of the release can follow (R38, R103, log 10). -/
def Segment.inReset (g : Segment) : Segment :=
  { g with
    state := if g.state = .held then .recovering else g.state
    holder := none, bus := .idle, transfer := none, openAfter := false, waiters := [], requests := [], resume := none }

/-- A management unit while RESET_N is low: no frame in assembly and no read in progress (R38, log 10). -/
def MgmtUnit.inReset (m : MgmtUnit) : MgmtUnit := { m with frame := none, reading := none }

/-- The staging unit while RESET_N is low: a commit in flight has ended without completing (R38, R182, log 10). -/
def endCommit (s : State) : State :=
  match s.staging.state with
  | .committing _ => freeStaging s
  | _ => s

/-- POWER_ON (R38). -/
def execPowerOn (ma1 ma0 : Bool) (sclA sclB : Line) (s : State) : Out := .next (release ma1 ma0 sclA sclB s)

/-- RESET_N_LOW: every line is released and every operation in flight ends without completing (R38, log 10). -/
def execResetNLow (s : State) : Out :=
  .next { endCommit s with
    inReset := true
    frontEnds := ⟨.powerOn .high, .powerOn .high⟩
    contexts := ⟨.idle, .idle⟩
    units := ⟨s.units.a.inReset, s.units.b.inReset⟩
    segments := s.segments.map Segment.inReset }

/-- RESET_N_RELEASE. A low level too short to be taken as a reset has no effect (R38, log 17). -/
def execResetNRelease (ma1 ma0 : Bool) (sclA sclB : Line) (s : State) : Out :=
  if s.inReset then .next (release ma1 ma0 sclA sclB s) else .next s

end Sys2Proof.Machine
end

