-- ==== Sys2Proof/Machine/Timers.lean ====
section
/-! DEFINITION. The expiries of the arbiters' and the staging unit's timers, and the end of a commit's validation (R112, R117, R174, R179).
A timer in ms is measured by the model's moment `now` (log 3). An expiry whose timer does not run, or has been started anew and has not
reached its end, has lost a race that the spec describes, and has no effect (log 6). -/

namespace Sys2Proof.Machine

/-- The hold-limit timer of a waiter has reached the limit in force for its wait (R111). -/
def Waiter.expired (w : Waiter) (now : Nat) : Bool := w.since + w.limit ≤ now

/-- Port `p`'s wait for segment `d` has reached its hold limit (R111). -/
def waitExpired (p : Port) (d : Seg) (s : State) : Bool :=
  (s.seg d).waiters.any (fun w => w.port = p && w.expired s.now)

/-- Port `p`'s wait ends with its hold limit: refused SEGMENT_BUSY (R112). -/
def endWait (p : Port) (s : State) : State :=
  match (s.ctx p).access with
  | none => s
  | some a =>
    if waitExpired p a.copy.segment s then refuse p .segmentBusy none 0 (dropWaiter a.copy.segment p s) else s

/-- HOLD_LIMIT_EXPIRY (R46, R112). -/
def execHoldLimitExpiry (p : Port) (s : State) : Out :=
  running s (fun s => if (s.ctx p).state = .waiting then .next (endWait p s) else .next s)

/-- The expiry of a lease has been reached (R117). -/
def Lease.expired (l : Lease) (now : Nat) : Bool := l.expiry ≤ now

/-- LEASE_EXPIRY. A lease that its holder renewed first continues with its new expiry (R117). -/
def execLeaseExpiry (d : Seg) (sda : Line) (s : State) : Out :=
  running s (fun s =>
    match (s.seg d).lease with
    | none => .next s
    | some l => if l.expired s.now then .next (endLease d sda s) else .next s)

/-- The ownership idle timer has reached 500 ms (R174). -/
def IdleTimer.expired (t : IdleTimer) (now : Nat) : Bool :=
  match t with
  | .stopped => false
  | .counting since => since + Config.ownershipIdle ≤ now

/-- OWNERSHIP_IDLE_TIMEOUT. A timer that a good-check frame end restarted first goes on (R174). -/
def execOwnershipIdleTimeout (s : State) : Out :=
  running s (fun s =>
    match s.staging.state with
    | .owned _ => if s.staging.timer.expired s.now then .next (freeStaging s) else .next s
    | _ => .next s)

/-- COMMIT_COMPLETION (R179, R180, R181). -/
def execCommitCompletion (s : State) : Out :=
  running s (fun s => match s.staging.state with
    | .committing p => .next (complete p s)
    | _ => .next s)

end Sys2Proof.Machine
end

