-- ==== Sys2Proof/Machine/Dispatch.lean ====
section
/-! DEFINITION. The effect of each command: one arm for each constructor of Instr. -/

namespace Sys2Proof.Machine

/-- The effect of a command on everything but the queue. -/
def exec (i : Instr) (s : State) : Host.Outcome State Fault Refusal :=
  match i with
  | .powerOn ma1 ma0 sclA sclB => Sys2Proof.Machine.execPowerOn ma1 ma0 sclA sclB s
  | .resetNLow => Sys2Proof.Machine.execResetNLow s
  | .resetNRelease ma1 ma0 sclA sclB => Sys2Proof.Machine.execResetNRelease ma1 ma0 sclA sclB s
  | .upstreamStart p sda eighth => Sys2Proof.Machine.execUpstreamStart p sda s eighth
  | .repeatedStart p sda eighth => Sys2Proof.Machine.execRepeatedStart p sda s eighth
  | .stop p sda eighth => Sys2Proof.Machine.execStop p sda s eighth
  | .addressByte p b sda => Sys2Proof.Machine.execAddressByte p b sda s
  | .frameByte p b => Sys2Proof.Machine.execFrameByte p b s
  | .writeIndexByte p b => Sys2Proof.Machine.execWriteIndexByte p b s
  | .writeDataByte p b => Sys2Proof.Machine.execWriteDataByte p b s
  | .targetAddressAnswer d answer ninth => Sys2Proof.Machine.execTargetAddressAnswer d answer s ninth
  | .indexByteAnswer d answer => Sys2Proof.Machine.execIndexByteAnswer d answer s
  | .dataByteAnswer d answer => Sys2Proof.Machine.execDataByteAnswer d answer s
  | .fetchedByte d b => Sys2Proof.Machine.execFetchedByte d b s
  | .readByteAck p => Sys2Proof.Machine.execReadByteAck p s
  | .readByteNak p => Sys2Proof.Machine.execReadByteNak p s
  | .fillerByteAnswer p answer => Sys2Proof.Machine.execFillerByteAnswer p answer s
  | .viewByteAnswer p answer => Sys2Proof.Machine.execViewByteAnswer p answer s
  | .upstreamBusTimeout p eighth => Sys2Proof.Machine.execUpstreamBusTimeout p s eighth
  | .closeEnd d sda => Sys2Proof.Machine.execCloseEnd d sda s
  | .stallTimeout d => Sys2Proof.Machine.execStallTimeout d s
  | .recoveryEnd d final sda => Sys2Proof.Machine.execRecoveryEnd d final sda s
  | .openingBusClearEnd d final sda => Sys2Proof.Machine.execOpeningBusClearEnd d final sda s
  | .holdLimitExpiry p => Sys2Proof.Machine.execHoldLimitExpiry p s
  | .leaseExpiry d sda => Sys2Proof.Machine.execLeaseExpiry d sda s
  | .ownershipIdleTimeout => Sys2Proof.Machine.execOwnershipIdleTimeout s
  | .commitCompletion => Sys2Proof.Machine.execCommitCompletion s
  | .selectView p view arg offset => Sys2Proof.Machine.execSelectView p view arg offset s
  | .clearError p => Sys2Proof.Machine.execClearError p s
  | .setCheckMode p mode => Sys2Proof.Machine.execSetCheckMode p mode s
  | .setHoldLimit p limit => Sys2Proof.Machine.execSetHoldLimit p limit s
  | .configureSegment p seg speed stall enable => Sys2Proof.Machine.execConfigureSegment p seg speed stall enable s
  | .recoverSegment p seg => Sys2Proof.Machine.execRecoverSegment p seg s
  | .leaseSegment p seg duration => Sys2Proof.Machine.execLeaseSegment p seg duration s
  | .releaseLease p seg sda => Sys2Proof.Machine.execReleaseLease p seg sda s
  | .acknowledgeLog p sequence => Sys2Proof.Machine.execAcknowledgeLog p sequence s
  | .clearCounters p entry => Sys2Proof.Machine.execClearCounters p entry s
  | .invalidateCursor p entry => Sys2Proof.Machine.execInvalidateCursor p entry s
  | .setAttentionMask p mask => Sys2Proof.Machine.execSetAttentionMask p mask s
  | .stageEntry p entry mask image => Sys2Proof.Machine.execStageEntry p entry mask image s
  | .revertStaging p => Sys2Proof.Machine.execRevertStaging p s
  | .discardStaging p => Sys2Proof.Machine.execDiscardStaging p s
  | .commit p => Sys2Proof.Machine.execCommit p s
  | .softReset p => Sys2Proof.Machine.execSoftReset p s
  | .nakOfByteEnd d sda => Sys2Proof.Machine.execNakOfByteEnd d sda s

end Sys2Proof.Machine
end

