-- ==== Sys2Proof/Machine/Step.lean ====
section
/-! DEFINITION. One step: the command at the front of the queue, or an idle step. -/

namespace Sys2Proof.Machine

/-- A step takes the command at the front of the queue and answers its outcome on the state with the queue's rest; on an empty queue one
millisecond passes and nothing else happens (log 2). -/
def step (s : State) : Host.Outcome State Fault Refusal :=
  match s.pending with
  | [] => .next { s with now := s.now + 1 }
  | i :: rest => exec i (s.setPending rest)

/-- The state with the command that a table word spells put at the front of its queue; unchanged where the word spells none (log 19). -/
def State.withFetchWord (s : State) (nbits w : Nat) : State :=
  match decodeTableWord nbits w with
  | some i => s.setPending (i :: s.pending)
  | none => s

end Sys2Proof.Machine
end

