-- ==== Sys2Proof/Safety.lean ====
section
/-! DEFINITION. What every reachable state satisfies, as predicates on a state, and the words in which the obligations speak: a port at rest,
the row of a command, the bytes of a frame. -/

namespace Sys2Proof.Machine

/-! ## The violation log and the counters -/

/-- The log holds at most 16 records, whose sequences are consecutive and end just before the next sequence; the dropped count is in
range (R122, R126). -/
abbrev Log.wf (l : Log) : Prop :=
  l.records.length ≤ Config.logCapacity ∧ l.dropped ≤ Config.countTop ∧
    ∀ i : Fin l.records.length, l.records[i].sequence = l.next - BitVec.ofNat 16 (l.records.length - i.val)

/-- Both counters are in range (R22). -/
abbrev Counters.wf (c : Counters) : Prop := c.accepted ≤ Config.countTop ∧ c.denied ≤ Config.countTop

/-- Port `p`'s hold limit, its failure count and the data byte count of its access are in range (R42, R108, R136). -/
abbrev State.portCountsWf (s : State) (p : Port) : Prop :=
  s.holdLimit p ≤ 50 ∧ (s.mgmt p).failures ≤ Config.byteTop ∧ ∀ a ∈ (s.ctx p).access, a.count ≤ Config.byteTop

/-- The counters of every entry, the counts of both ports, the hold limit of every wait and the byte offset of every record are in range
(R22, R42, R108, R123, R136). -/
abbrev State.countsWf (s : State) : Prop :=
  (∀ n : Fin 32, s.counters[n].wf) ∧ s.portCountsWf .A ∧ s.portCountsWf .B ∧
    (∀ d : Seg, ∀ w ∈ (s.seg d).waiters, w.limit ≤ 50) ∧ ∀ r ∈ s.log.records, r.report.offset ≤ Config.byteTop

/-! ## Management units -/

/-- First-error record, failure count and guard state agree (R145). -/
abbrev MgmtUnit.checkWf (m : MgmtUnit) : Prop :=
  (m.firstError.isSome ↔ m.failures ≠ 0) ∧ (m.guard = .guarded → m.firstError.isSome) ∧ m.failures ≤ Config.byteTop

/-- The check state of both ports is consistent (R145). -/
abbrev State.checkWf (s : State) : Prop := (s.mgmt .A).checkWf ∧ (s.mgmt .B).checkWf

/-- The running check value over the address byte and then the bytes `l` (R139). -/
def runningCheck (addr : Addr7) (l : List Byte) : Byte := l.foldl crcFold (crcFold 0xFF#8 (writeForm addr))

/-- The state of a frame whose command byte is a code of payload length `n` (R138, R140, R141). -/
abbrev Frame.knownWf (addr : Addr7) (f : Frame) (code : Byte) (n : Nat) : Prop :=
  f.payload.length ≤ n ∧ f.crc = runningCheck addr (code :: f.payload) ∧ (f.matched = true → f.payload.length = n) ∧
    (f.fault = none ∨ (f.fault = some .check ∧ f.payload.length = n ∧ f.matched = false) ∨
      (f.fault = some .length ∧ f.matched = true))

/-- A frame in assembly is as its bytes have left it (R137 to R141). -/
abbrev Frame.wf (addr : Addr7) (f : Frame) : Prop :=
  (f.command = none → f = Frame.start addr) ∧
    ∀ code ∈ f.command,
      (payloadLength code = none → f.fault = some .unknown ∧ f.payload = [] ∧ f.matched = false) ∧
        ∀ n ∈ payloadLength code, f.knownWf addr code n

/-- Both ports' frames are well formed. -/
abbrev State.framesWf (s : State) : Prop :=
  (∀ f ∈ (s.mgmt .A).frame, f.wf s.mgmtAddr) ∧ (∀ f ∈ (s.mgmt .B).frame, f.wf s.mgmtAddr)

/-! ## Policy, staging and cursors -/

/-- The active table satisfies the validity conditions (R18). -/
abbrev State.activeValid (s : State) : Prop := validate s.mgmtAddr s.active = none

/-- In FREE the staging image is a copy of the active table, and the idle timer counts in OWNED only (R171, R174). -/
abbrev State.stagingWf (s : State) : Prop :=
  (s.staging.state = .free → s.staging.image = s.active ∧ s.staging.timer = .stopped) ∧
    (∀ p, s.staging.state = .owned p → s.staging.timer ≠ .stopped) ∧
    (∀ p, s.staging.state = .committing p → s.staging.timer = .stopped)

/-- The keys of the cursor map rise strictly: the one canonical form of a keyed map. -/
abbrev cursorsSorted (m : List CursorRec) : Prop := m.Pairwise (fun x y => x.target.key < y.target.key)

/-- The map holds exactly the targets that the enabled entries of width 1 or 2 of table `t` name, each with its width (R70, R71). -/
abbrev cursorsNamed (t : Table) (m : List CursorRec) : Prop :=
  (∀ r ∈ m, r.width ≠ .zero ∧
    ∃ n : Fin 32, t[n].enabled = true ∧ t[n].target = r.target ∧ t[n].width = r.width) ∧
  ∀ n : Fin 32, t[n].enabled = true → t[n].width ≠ .zero → ∃ r ∈ m, r.target = t[n].target ∧ r.width = t[n].width

/-- A present index for width `w` is in its range: at most 255 for width 1 (R42, R70); an absent one is as 0. -/
abbrev IndexWidth.allows (w : IndexWidth) (i : Option Word16) : Prop := w = .one → (i.getD 0#16).toNat ≤ 255

/-- The indexes of an access are in the range of its copy's width, and no index byte means no index value (R42). -/
abbrev Access.indexWf (a : Access) : Prop := a.copy.width.allows a.cursor ∧ (a.indexBytes = 0 → a.indexValue = 0#16)

/-- Every cursor of the map, and every working cursor, is in the range of its width (R42, R70). -/
abbrev State.indexesWf (s : State) : Prop :=
  (∀ r ∈ s.cursors, r.width.allows r.cursor) ∧ (∀ a ∈ (s.ctx .A).access, a.indexWf) ∧ ∀ a ∈ (s.ctx .B).access, a.indexWf

/-- The cursor map is in canonical form and holds the keys of the active table. -/
abbrev State.cursorsWf (s : State) : Prop := cursorsSorted s.cursors ∧ cursorsNamed s.active s.cursors

/-! ## Segments and contexts -/

/-- What R87, R95, R97, R105 and R119 say of one segment: a pending configuration only in HELD and RECOVERING; no lease and no waiter in
DISABLED and FAULT; an idle bus outside HELD and RECOVERING; a holder and a transfer only in HELD; requests only during a close, and so an
address byte that waits for the release (R64, R92). -/
abbrev Segment.wf (g : Segment) : Prop :=
  (g.pendingConfig.isSome → g.state = .held ∨ g.state = .recovering) ∧
    (g.state = .disabled ∨ g.state = .fault → g.lease = none ∧ g.waiters = []) ∧
    (g.state ≠ .held → g.state ≠ .recovering → g.bus = .idle) ∧
    (g.holder.isSome → g.state = .held) ∧ (g.transfer.isSome → g.state = .held) ∧
    (g.openAfter = true → g.transfer = some .nak ∧ g.holder.isSome) ∧
    (g.requests ≠ [] → g.state = .held ∧ g.holder = none) ∧
    (g.resume.isSome → g.state = .held ∧ g.holder = none ∧ g.bus = .closing ∧ (g.transfer = none ∨ g.transfer = some .nak))

/-- The configuration part of `Segment.wf`, which stands by itself (R87, R119). -/
abbrev Segment.configWf (g : Segment) : Prop :=
  (g.pendingConfig.isSome → g.state = .held ∨ g.state = .recovering) ∧
    (g.state = .disabled ∨ g.state = .fault → g.lease = none)

/-- Every segment's pending configuration and lease are where R87 and R119 allow them. -/
abbrev State.configsWf (s : State) : Prop := ∀ d : Seg, (s.seg d).configWf

/-- The access record of a context that holds its segment. -/
def Context.holds (c : Context) : Bool :=
  match c.access with
  | some a => a.held = some a.copy.segment && c.retained.isNone
  | none => false

/-- The access record of a context that holds no segment. -/
def Context.released (c : Context) : Bool :=
  match c.access with
  | some a => a.held.isNone && c.retained.isNone
  | none => false

/-- The context is in the retained interval (R63). -/
def Context.retains (c : Context) : Bool := c.access.isNone && c.retained.isSome

/-- The access of the context runs in direction `dir`. -/
def Context.runs (c : Context) (dir : Dir) : Bool :=
  match c.access with
  | some a => a.dir = dir
  | none => false

/-- The write of the context awaits more index bytes (R49). -/
def Context.indexing (c : Context) : Bool :=
  match c.access with
  | some a => a.indexBytes < a.copy.width.bytes
  | none => false

/-- The access of the context has received no index byte yet (R42). -/
def Context.fresh (c : Context) : Bool :=
  match c.access with
  | some a => a.indexBytes = 0
  | none => false

/-- State, access record, held and retained segment of a context agree, as the "segment" column of R41 gives them (R41, R42, R63). -/
def Context.wf (c : Context) : Bool :=
  match c.state with
  | .idle => c.access.isNone && c.retained.isNone
  | .unaddressed => c.access.isNone && c.retained.isNone
  | .mgmtWrite => c.access.isNone && c.retained.isNone
  | .mgmtRead => c.access.isNone && c.retained.isNone
  | .matching => (c.released && c.fresh) || (c.access.isNone && c.retained.isNone)
  | .waiting => c.released && c.fresh
  | .filler => c.released
  | .refusing => c.released
  | .opening => c.holds && c.fresh
  | .writeIndex => (c.holds && c.runs .write && c.indexing) || c.retains
  | .writeData => (c.holds && c.runs .write) || c.retains
  | .readData => c.holds && c.runs .read
  | .readEnd => (c.holds && c.runs .read) || c.retains

/-- Segment `d` and the contexts agree on who holds it (R42, R87). -/
abbrev State.holderWf (s : State) (d : Seg) : Prop :=
  ∀ p ∈ [Port.A, Port.B], (s.seg d).holder = some p ↔ (s.ctx p).segment? = some d

/-- A context is among the waiters of segment `d` exactly when it is in WAITING for it (R46, R108). -/
abbrev State.waitersWf (s : State) (d : Seg) : Prop :=
  ((s.seg d).waiters.map Waiter.port).Nodup ∧
    ∀ p ∈ [Port.A, Port.B], p ∈ (s.seg d).waiters.map Waiter.port ↔
      (s.ctx p).state = .waiting ∧ (s.ctx p).access.map (fun a => a.copy.segment) = some d

/-- Port `p`'s address byte waits for the release of segment `d` (R64). -/
abbrev State.awaits (s : State) (p : Port) (d : Seg) : Prop := ∃ r ∈ (s.seg d).resume, r.port = p

/-- A context is among the requests of segment `d` exactly when it is in MATCH for it and waits for no release (R92). -/
abbrev State.requestsWf (s : State) (d : Seg) : Prop :=
  (s.seg d).requests.Nodup ∧
    ∀ p ∈ [Port.A, Port.B], p ∈ (s.seg d).requests ↔
      (s.ctx p).state = .matching ∧ (s.ctx p).access.map (fun a => a.copy.segment) = some d ∧ ∀ e, ¬ s.awaits p e

/-- The outcome is the request of a segment. -/
def AddressOutcome.isRequest : AddressOutcome → Bool
  | .request _ => true
  | _ => false

/-- An address byte that waits for the release of segment `d` is that of a context in MATCH, which has an access exactly where the byte
matched an entry, and waits for no other release; a request that follows is for another segment (R64). -/
abbrev State.resumeWf (s : State) (d : Seg) : Prop :=
  ∀ r ∈ (s.seg d).resume, (s.ctx r.port).state = .matching ∧ ((s.ctx r.port).access.isSome ↔ r.hasAccess = true) ∧
    (∀ e, s.awaits r.port e → e = d) ∧
    (r.outcome.isRequest = true → (s.ctx r.port).access.map (fun a => a.copy.segment) ≠ some d)

/-- A waiter on an IDLE segment is barred by its lease (R113). -/
abbrev State.idleWaitersWf (s : State) (d : Seg) : Prop :=
  (s.seg d).state = .idle → ∀ w ∈ (s.seg d).waiters, barred (s.seg d) w.port = true

/-- The transfer in flight on the segment that access `a` holds is one of the context's state, and a START goes to the copy's downstream
address in the access's direction (R5, R48, R90). -/
def transferFits (st : CtxState) (a : Access) (g : Segment) : Bool :=
  match st with
  | .opening => match g.transfer with
    | some (.start _ address dir) => address = a.copy.downAddr && dir = a.dir
    | some .busClear => true
    | some .nak => g.openAfter
    | _ => false
  | .writeIndex => match g.transfer with
    | none => true
    | some (.indexByte _) => true
    | _ => false
  | .writeData => match g.transfer with
    | none => true
    | some (.dataByte _) => true
    | _ => false
  | .readData => g.transfer = none || g.transfer = some .fetch
  | .readEnd => (g.transfer = none || g.transfer = some .nak) && !g.openAfter
  | _ => false

/-- The transfers of the held segments fit their contexts; in the retained interval only a NAK can be in flight. -/
def State.transfersFit (s : State) (d : Seg) : Bool :=
  match (s.seg d).holder with
  | none => true
  | some p => (s.seg d).bus ≠ .closing && match (s.ctx p).access with
    | some a => transferFits (s.ctx p).state a (s.seg d)
    | none => ((s.seg d).transfer = none || (s.seg d).transfer = some .nak) && !(s.seg d).openAfter

/-- The part holds the clock of port `p` (R28, R41). -/
def State.holdExpected (s : State) (p : Port) : Bool :=
  (s.ctx p).state.clockHeld ||
    match (s.ctx p).access with
    | none => false
    | some a => match a.held with
      | none => false
      | some d => match (s.ctx p).state with
        | .writeIndex => (s.seg d).transfer.isSome
        | .writeData => (s.seg d).transfer.isSome
        | .readData => (s.seg d).transfer.isSome
        | _ => false

/-- In READ_DATA, port `p` is delivering a byte, or the clock is held for a fetch, or no byte has been fetched yet (R54, R62). -/
def State.readWf (s : State) (p : Port) : Bool :=
  (s.ctx p).state ≠ .readData || delivering p s || (s.fe p).hold ||
    match (s.ctx p).access with
    | none => true
    | some a => a.count = 0

/-- Port `p`: its context is well formed, its clock hold is as its state demands, its timeout timer is stopped during a hold and spent only on a FREE
bus, its frame assembler and read position are busy only in MGMT_WRITE and MGMT_READ, an address byte can come only in IDLE or in the retained interval, and MATCH without an access is the wait of an
address byte for a release (R26, R28, R33, R41, R64, R136). -/
abbrev State.portWf (s : State) (p : Port) : Prop :=
  (s.ctx p).wf = true ∧ (s.fe p).hold = s.holdExpected p ∧ s.readWf p = true ∧
    ((s.fe p).hold = true → (s.fe p).timer = .stopped) ∧ ((s.fe p).timer = .spent → (s.fe p).bus = .free) ∧
    ((s.mgmt p).frame.isSome ↔ (s.ctx p).state = .mgmtWrite) ∧ ((s.mgmt p).reading.isSome ↔ (s.ctx p).state = .mgmtRead) ∧
    ((s.fe p).bus = .free → (s.ctx p).state = .idle) ∧
    ((s.fe p).role = .address → (s.ctx p).state = .idle ∨ (s.ctx p).retains = true) ∧
    ((s.ctx p).state = .matching → (s.ctx p).access = none → ∃ d, s.awaits p d)

/-- Segment `d`: well formed, and in agreement with both contexts. -/
abbrev State.segWf (s : State) (d : Seg) : Prop :=
  (s.seg d).wf ∧ s.holderWf d ∧ s.waitersWf d ∧ s.requestsWf d ∧ s.resumeWf d ∧ s.idleWaitersWf d ∧ s.transfersFit d = true

/-- The ports and the segments agree: who holds, who waits, who requests, who awaits a release, and what is in flight. -/
abbrev State.trafficWf (s : State) : Prop := s.portWf .A ∧ s.portWf .B ∧ ∀ d : Seg, s.segWf d

/-! ## Words of the obligations -/

/-- RESET_N is high and the part does not hold the clock of port `p`: its timeout timer can expire (R29, R33). -/
abbrev State.clockFree (s : State) (p : Port) : Prop :=
  s.inReset = false ∧ (s.fe p).hold = false ∧ (s.ctx p).state.clockHeld = false

/-- An upstream event of port `p` can arrive: its clock is free, and in READ_DATA a byte is being delivered (R29, R62). -/
abbrev State.open (s : State) (p : Port) : Prop :=
  s.clockFree p ∧ ((s.ctx p).state = .readData → delivering p s = true)

/-- Port `p` is at rest: a management command's row can be carried out (log 5). -/
abbrev State.atRest (s : State) (p : Port) : Prop :=
  s.inReset = false ∧ (s.fe p).hold = false ∧ (s.ctx p).state = .idle

/-- Port `p` is at rest and NORMAL: every command executes (R143). -/
abbrev State.ready (s : State) (p : Port) : Prop := s.atRest p ∧ (s.mgmt p).guard = .normal

/-- The row of the table for a management command of port `p`. -/
def rowOf (p : Port) (c : Command) (sda : Line) : Instr :=
  match c with
  | .selectView v a o => .selectView p v a o
  | .clearError => .clearError p
  | .setCheckMode m => .setCheckMode p m
  | .setHoldLimit h => .setHoldLimit p h
  | .configureSegment d v t e => .configureSegment p d v t e
  | .recoverSegment d => .recoverSegment p d
  | .leaseSegment d w => .leaseSegment p d w
  | .releaseLease d => .releaseLease p d sda
  | .acknowledgeLog q => .acknowledgeLog p q
  | .clearCounters n => .clearCounters p n
  | .invalidateCursor n => .invalidateCursor p n
  | .setAttentionMask m => .setAttentionMask p m
  | .stageEntry n m i => .stageEntry p n m i
  | .revertStaging => .revertStaging p
  | .discardStaging => .discardStaging p
  | .commit => .commit p
  | .softReset => .softReset p

/-- The bytes of a good frame of command `c` after its address byte: code, payload, check byte (R138, R139). -/
def frameBytes (addr : Addr7) (c : Command) : List Byte :=
  commandCode c :: commandPayload c ++ [runningCheck addr (commandCode c :: commandPayload c)]

/-- The frame that has received all of `frameBytes addr c`: complete and good (R140). -/
def Frame.good (addr : Addr7) (c : Command) : Frame :=
  { command := some (commandCode c), payload := commandPayload c,
    crc := runningCheck addr (commandCode c :: commandPayload c), matched := true, fault := none }

/-! ## What an operation leaves alone -/

/-- Traffic operations change only front ends, contexts, segments, the log, the counters, the cursor map and the free-value count. -/
structure Keeps (s t : State) : Prop where
  inReset : t.inReset = s.inReset
  straps : t.straps = s.straps
  units : t.units = s.units
  holdLimits : t.holdLimits = s.holdLimits
  active : t.active = s.active
  generation : t.generation = s.generation
  staging : t.staging = s.staging
  mask : t.mask = s.mask
  now : t.now = s.now
  pending : t.pending = s.pending

/-- The other port's front end and context are as before. -/
structure KeepsOther (p : Port) (s t : State) : Prop where
  fe : t.fe (other p) = s.fe (other p)
  ctx : t.ctx (other p) = s.ctx (other p)

/-- Every segment but `d` is as before. -/
def KeepsSegs (d : Seg) (s t : State) : Prop := ∀ e, e ≠ d → t.seg e = s.seg e

/-! ## What an event leaves behind, piece by piece -/

/-- The state after the end of a good-check frame of port `p` whose command left `t`: the result record is written, the serial advances by
one, and the owner's idle timer restarts (R144, R148). -/
def reported (p : Port) (code : Byte) (r : Result) (t : State) : State :=
  let u := t.setMgmt p { t.mgmt p with result := ⟨code, r, (t.mgmt p).result.serial + 1⟩ }
  if t.staging.state = .owned p then u.setStaging { t.staging with timer := .counting t.now } else u

/-- The log after port `p`'s access `a` made a record of kind `k`, which a quiet entry may suppress (R11, R65, R126, R127). -/
def logged (s : State) (p : Port) (a : Access) (k : Kind) (index : Option Word16) (offset : Nat) : Log :=
  if a.copy.quiet && k.quietable then s.log
  else s.log.take
    { kind := k, port := some p, dir := some a.dir, upAddr := some a.copy.upAddr, entry := some a.entryNo,
      segment := a.copy.segment, index := index, generation := s.generation, offset := offset }

/-- The counters `cs` after access `a` made a denied claim, which a detached access does not make (R21, R22). -/
def deniedIn (cs : Vector Counters 32) (a : Access) : Vector Counters 32 :=
  if a.detached then cs
  else cs.set a.entryNo { cs[a.entryNo] with denied := min 65535 (cs[a.entryNo].denied + 1) }

/-- The counters after access `a` made a denied claim (R21, R22). -/
def denied (s : State) (a : Access) : Vector Counters 32 := deniedIn s.counters a

/-- The counters after access `a` made an accepted claim, which a detached access does not make (R20, R22). -/
def accepted (s : State) (a : Access) : Vector Counters 32 :=
  if a.detached then s.counters
  else s.counters.set a.entryNo { s.counters[a.entryNo] with accepted := min 65535 (s.counters[a.entryNo].accepted + 1) }

/-- The cursor map after access `a` handed back `v`: none for a detached access and for width 0 (R61, R67, R80). -/
def handed (s : State) (a : Access) (v : Option Word16) : List CursorRec :=
  if a.detached || a.copy.width = .zero then s.cursors else storeCursor a.copy.target a.copy.width v s.cursors

/-- An access that has given up its segment with the cursor `v` (R61). -/
def Access.ended (a : Access) (v : Option Word16) : Access := { a with held := none, cursor := v }

/-- A segment at a close request: no holder, bus closing, a transfer in flight kept, else the NAK `tail` that a byte still needs (R91). -/
def Segment.closed (g : Segment) (tail : Option Transfer) : Segment :=
  { g with holder := none, bus := .closing, transfer := g.transfer.or tail, openAfter := false }

/-- A front end that gives the ninth bit `a` and holds no clock (R27). -/
def FrontEnd.answering (f : FrontEnd) (a : Ack) : FrontEnd :=
  { f with hold := false, byte := .none, drive := if a = .ack then .low else .released, timer := .counting }

/-- A front end that holds the clock (R28). -/
def FrontEnd.holding (f : FrontEnd) : FrontEnd :=
  { f with hold := true, byte := .none, drive := .released, timer := .stopped }

/-- A front end that delivers the read byte `b` (R26, R28). -/
def FrontEnd.sending (f : FrontEnd) (b : Byte) : FrontEnd :=
  { f with hold := false, byte := .delivering b, role := .read, drive := if b.msb then .released else .low, timer := .counting }

/-- A front end that lets both lines go and neither assembles nor delivers a byte (R27). -/
def FrontEnd.silent (f : FrontEnd) : FrontEnd := { f with hold := false, byte := .none, drive := .released }

/-- A front end that has seen SCL high (R33). -/
def FrontEnd.clocked (f : FrontEnd) : FrontEnd := { f with timer := .stopped }

/-- A front end at a START (R25). -/
def FrontEnd.started (f : FrontEnd) : FrontEnd :=
  { f with bus := .active, byte := .none, role := .address, drive := .released, timer := .stopped }

/-- A front end at a STOP (R25). -/
def FrontEnd.stoppedBy (f : FrontEnd) : FrontEnd :=
  { f with bus := .free, byte := .none, role := .address, drive := .released, timer := .stopped }

/-- A front end at the answer to an address byte of direction `dir`, with the role of the bytes that follow (R26). -/
def FrontEnd.addressed (f : FrontEnd) (dir : Dir) : FrontEnd :=
  { f with role := if dir = .read then .read else .written, timer := .stopped }

/-- The state after port `p`'s address byte of direction `dir`, with the access `a` where it matched an entry, gave up the segment `d` that the
port retained: the close is requested, the context holds the clock in MATCH, and `o` follows at the release (R44, R64, R91). -/
def State.awaiting (s : State) (p : Port) (d : Seg) (dir : Dir) (a : Option Access) (o : AddressOutcome) : State :=
  ((s.setFe p ((s.fe p).addressed dir).holding).setCtx p ⟨.matching, a, none⟩).setSeg d
    { (s.seg d).closed none with resume := some ⟨p, o⟩ }

/-- The bus state and byte role at which an address byte is taken (R26). -/
abbrev State.awaitsAddress (s : State) (p : Port) : Prop :=
  s.open p ∧ (s.fe p).bus = .active ∧ (s.fe p).role = .address

/-- Port `p`'s context is in state `st` with access `a` on segment `d`. -/
abbrev State.accessing (s : State) (p : Port) (st : CtxState) (a : Access) (d : Seg) : Prop :=
  (s.ctx p).state = st ∧ (s.ctx p).access = some a ∧ a.held = some d

/-- Segment `d` is in a transfer `x` for port `p`'s access `a`. -/
abbrev State.transferring (s : State) (d : Seg) (x : Transfer) (p : Port) (a : Access) : Prop :=
  s.inReset = false ∧ (s.seg d).transfer = some x ∧ (s.seg d).holder = some p ∧ (s.ctx p).access = some a ∧ a.held = some d

/-- Step 4 of the address phase passes with the loaded cursor `v` (R47). -/
abbrev passesStepFour (e : Entry) (dir : Dir) (v : Option Word16) : Prop :=
  dir = .write ∨ e.width = .zero ∨ (v = none ∧ e.blind = true) ∨
    ∃ i ∈ v, e.readWin.low.toNat ≤ i.toNat ∧ i.toNat ≤ e.readWin.high.toNat

/-- Steps 1 and 2 of the address phase pass (R43). -/
abbrev passesStepsOneTwo (e : Entry) (dir : Dir) : Prop :=
  (dir = .read → e.readWin.present = true) ∧ (dir = .write → e.width = .zero → e.writeWin.present = true)

/-! ## The arbiter's answers as states -/

/-- The state after port `p`'s address was refused for its access `a` without holding the segment: record, denied, NAK, REFUSING (R43, R65). -/
def State.refusedFor (s : State) (p : Port) (a : Access) (k : Kind) (index : Option Word16) : State :=
  (((s.setLog (logged s p a k index 0)).setCounters (denied s a)).setFe p ((s.fe p).answering .nak)).setCtx p
    { s.ctx p with state := .refusing }

/-- The state after port `p`'s access `a` was granted a segment whose step 4 refuses it: the loaded cursor is handed back and the segment is
left as it is (R47, R65). -/
def State.refusedAtFour (s : State) (p : Port) (a : Access) : State :=
  let v := loadCursor s.cursors a.copy
  ((((s.setCursors (handed s a v)).setLog (logged s p a (if v = none then .blindRead else .readWindow) v 0)).setCounters
    (denied s a)).setFe p ((s.fe p).answering .nak)).setCtx p ⟨.refusing, some (a.ended v), none⟩

/-- The state after segment `d` was granted to port `p`'s access `a`: HELD, the cursor loaded, and OPENING with its START in flight, or with
bus-clear where SDA is found low (R47, R48, R101, R110). -/
def State.grantedTo (s : State) (p : Port) (d : Seg) (sda : Line) (a : Access) : State :=
  (s.setCtx p ⟨.opening, some { a with held := some d, cursor := loadCursor s.cursors a.copy }, none⟩).setSeg d
    { s.seg d with
      state := .held, holder := some p, openAfter := false
      bus := if sda = .high then .opened else .idle
      transfer := if sda = .high then some (.start false a.copy.downAddr a.dir) else some .busClear }

/-- The state after port `p`'s context began to wait for segment `d` (R111). -/
def State.waitsFor (s : State) (p : Port) (d : Seg) : State :=
  (s.setSeg d { s.seg d with waiters := (s.seg d).waiters ++ [⟨p, s.holdLimit p, s.now⟩] }).setCtx p
    { s.ctx p with state := .waiting }

/-- Segment `d`, as it stands in `t`, answers the request of port `p`'s access `a` with the state `u` (R92, R110). -/
def State.Answers (t : State) (d : Seg) (p : Port) (a : Access) (sda : Line) (u : State) : Prop :=
  let g := t.seg d
  (g.state = .disabled ∨ g.state = .fault → u = t.refusedFor p a .segmentDown none) ∧
  (g.state = .idle → (∀ l ∈ g.lease, l.holder = p) →
    (passesStepFour a.copy a.dir (loadCursor t.cursors a.copy) → u = t.grantedTo p d sda a) ∧
    (¬ passesStepFour a.copy a.dir (loadCursor t.cursors a.copy) → u = t.refusedAtFour p a)) ∧
  (g.state = .recovering ∨ (g.state = .held ∧ g.holder ≠ none) ∨ (g.state = .idle ∧ ∃ l ∈ g.lease, l.holder ≠ p) →
    (t.holdLimit p = 0 → u = t.refusedFor p a .segmentBusy none) ∧ (t.holdLimit p ≠ 0 → u = t.waitsFor p d)) ∧
  (g.state = .held → g.holder = none → u = t.setSeg d { g with requests := g.requests ++ [p] })

/-- The state after port `p`'s address byte was left unanswered (R30). -/
def State.ignored (t : State) (p : Port) : State :=
  (t.setFe p ((t.fe p).answering .nak)).setCtx p ⟨.unaddressed, none, none⟩

/-- The state after a write to the management address began a frame of port `p`, the address byte folded into its check value (R137). -/
def State.framing (t : State) (p : Port) : State :=
  ((t.setFe p ((t.fe p).answering .ack)).setCtx p ⟨.mgmtWrite, none, none⟩).setMgmt p
    { t.mgmt p with frame := some ⟨none, [], crcFold 0xFF#8 (t.mgmtAddr ++ 0#1), false, none⟩ }

/-- The state after a read of the management address took the snapshot of port `p`'s selected view, reduced the view cursor, and began to
deliver from there (R150, R151). -/
def State.viewing (t : State) (p : Port) : State :=
  let snap := viewBytes p t
  let pos := (t.mgmt p).selection.cursor % snap.length
  ((t.setFe p ((t.fe p).sending (snap.getD pos 0xFF#8))).setCtx p ⟨.mgmtRead, none, none⟩).setMgmt p
    { t.mgmt p with selection := ⟨(t.mgmt p).selection.view, pos⟩, reading := some ⟨snap, pos, true⟩ }

/-- With the segment released and `t` reached, port `p`'s address byte comes to its outcome `o` in the state `u` (R44, R64). -/
def State.Resolves (t : State) (p : Port) (o : AddressOutcome) (u : State) : Prop :=
  (o = .unanswered → u = t.ignored p) ∧ (o = .frame → u = t.framing p) ∧ (o = .snapshot → u = t.viewing p) ∧
  (∀ k i a, o = .refused k i → (t.ctx p).access = some a → u = t.refusedFor p a k i) ∧
  ∀ sda a, o = .request sda → (t.ctx p).access = some a → t.Answers a.copy.segment p a sda u

/-- The list `ws` names contexts by their ports, each with its access, in the order of `ps`. -/
abbrev State.accessesAre (s : State) (ps : List Port) (ws : List (Port × Access)) : Prop :=
  ps = ws.map Prod.fst ∧ ∀ x ∈ ws, (s.ctx x.1).access = some x.2

/-- The list `ws` names the waiters of segment `d` in their order, each with its access. -/
abbrev State.waitingAre (s : State) (d : Seg) (ws : List (Port × Access)) : Prop :=
  s.accessesAre ((s.seg d).waiters.map Waiter.port) ws

/-- The list `ws` names the waiters of segment `d` and the requests kept by it, each with its access. -/
abbrev State.askingAre (s : State) (d : Seg) (ws : List (Port × Access)) : Prop :=
  s.accessesAre ((s.seg d).waiters.map Waiter.port ++ (s.seg d).requests) ws

/-- The state after each of `ws` got its NAK and made its denied claim, less their records (R43, R97, R99). -/
def State.refusedDown (s : State) (ws : List (Port × Access)) : State :=
  ws.foldl (fun t x => ((t.setCounters (denied t x.2)).setFe x.1 ((t.fe x.1).answering .nak)).setCtx x.1
    { t.ctx x.1 with state := .refusing }) s

/-- The SEGMENT_DOWN records of `ws` (R46, R65). -/
def State.downReports (s : State) (ws : List (Port × Access)) : List Report :=
  ws.map (fun x =>
    { kind := .segmentDown, port := some x.1, dir := some x.2.dir, upAddr := some x.2.copy.upAddr, entry := some x.2.entryNo,
      segment := x.2.copy.segment, index := none, generation := s.generation, offset := 0 })

/-- Of port `p`'s management read with position `r`, what a view byte that counts changes: the position advances by one, with wrap, and is the view
cursor unless a SOFT RESET has ended the storing (R151, R152). -/
def MgmtUnit.viewed (m : MgmtUnit) (r : ReadPosition) : MgmtUnit :=
  { m with
    reading := some { r with pos := (r.pos + 1) % r.snapshot.length }
    selection := if r.stored then ⟨m.selection.view, (r.pos + 1) % r.snapshot.length⟩ else m.selection }

/-- `t` is `u` after the log took the records `rs`, handed to it together, one after the other in some order (R128, log 8). -/
def LogTakes (rs : List Report) (u t : State) : Prop :=
  ∃ (order : List Report) (n : Nat), order.Perm rs ∧ (rs.length ≤ 1 → n = u.freeCount) ∧
    t = { u with log := order.foldl (fun l r => l.take r) u.log, freeCount := n }

/-! ## Validation, as its rules state it -/

/-- The ports field of `e` includes port `p` (R4). -/
abbrev Entry.includes (e : Entry) (p : Port) : Prop :=
  e.ports = .both ∨ (e.ports = .onlyA ∧ p = .A) ∨ (e.ports = .onlyB ∧ p = .B)

/-- A present window of `e` is `w` (R8). -/
abbrev Entry.hasWindow (e : Entry) (w : Window) : Prop := w.present = true ∧ (w = e.readWin ∨ w = e.writeWin)

/-- A reserved address (R5, R30). -/
abbrev isReserved (x : Addr7) : Prop := x.toNat < 0x08 ∨ 0x78 ≤ x.toNat

/-- Entry `k` of the image `t` is enabled and breaks the condition of reason `r` (R15). -/
def breaks (mgmt : Addr7) (t : Table) (k : Fin 32) (r : Reason) : Prop :=
  t[k].enabled = true ∧ match r with
    | .noPort => t[k].ports = .neither
    | .reservedAddress => isReserved t[k].upAddr ∨ isReserved t[k].downAddr
    | .mgmtAddress => t[k].upAddr = mgmt ∧ t[k].ports ≠ .neither
    | .duplicate => ∃ j < k, t[j].enabled = true ∧ (∃ p, t[j].includes p ∧ t[k].includes p) ∧ t[j].upAddr = t[k].upAddr
    | .windowBounds => ∃ w, t[k].hasWindow w ∧ t[k].width ≠ .zero ∧
        (w.high.toNat < w.low.toNat ∨ (t[k].width = .one ∧ (255 < w.low.toNat ∨ 255 < w.high.toNat)))
    | .widthMismatch => ∃ j < k, t[j].enabled = true ∧ t[j].segment = t[k].segment ∧ t[j].downAddr = t[k].downAddr ∧
        t[j].width ≠ t[k].width

/-- The place of a reason in the order of the checks (R15). -/
def Reason.place : Reason → Nat
  | .noPort => 0
  | .reservedAddress => 1
  | .mgmtAddress => 2
  | .duplicate => 3
  | .windowBounds => 4
  | .widthMismatch => 5

end Sys2Proof.Machine
end

