-- ==== Sys2Proof/Certificates/Slice0/Obligations.lean ====
section
/-! DEFINITION. The statements for the provers, from the numbered rules of spec/. Where a statement's conclusion is an equation
`exec i s = .next t`, `t` is the state before with the pieces that the rules name replaced, so the equation is the frame as well. -/

open Sys2Proof Sys2Proof.Machine

/-! ## The machine -/

/-- A step takes the command at the front of the queue; on an empty queue only the model's moment advances (log 2). -/
def Obligations.StepTakesTheFront : Prop :=
  (∀ (c : Instr) (q : List Instr) (s : State), step (s.setPending (c :: q)) = exec c (s.setPending q)) ∧
    ∀ s : State, s.pending = [] → step s = .next { s with now := s.now + 1 }

/-- What reset leaves in each block. The timeout timers are stopped, since both upstream clocks read high at the release that the state after reset
stands for (log 1). The bus of a RECOVERING segment, which the spec gives as driven by the bus-clear sequence, is taken as idle (log 21). -/
def Obligations.ResetValues : Prop :=
  State.reset.active = clearedTable ∧ State.reset.staging = ⟨clearedTable, .free, .stopped, .none⟩ ∧
    State.reset.generation = 0 ∧ (∀ n : Fin 32, State.reset.counters[n] = ⟨0, 0⟩) ∧ State.reset.cursors = [] ∧
    State.reset.log = ⟨[], 0, 0⟩ ∧ State.reset.mask = ⟨true, true, true⟩ ∧
    (∀ p : Port, (State.reset.ctx p) = ⟨.idle, none, none⟩ ∧ State.reset.holdLimit p = 10 ∧
      State.reset.mgmt p = ⟨none, .stopping, .normal, none, 0, ⟨0, .done, 0⟩, ⟨.status, 0⟩, none⟩ ∧
      (State.reset.fe p).bus = .free ∧ (State.reset.fe p).byte = .none ∧ (State.reset.fe p).role = .address ∧
      (State.reset.fe p).hold = false ∧ (State.reset.fe p).drive = .released ∧ (State.reset.fe p).timer = .stopped) ∧
    ∀ d : Seg, State.reset.seg d = ⟨.recovering, none, .idle, none, false, ⟨.k100, 25, true⟩, none, none, [], [], none⟩

/-- POWER_ON, and RESET_N_RELEASE after RESET_N was taken low, leave every piece of state at its power-on value, with straps and upstream
clocks as sampled: each front end is as at power-on, its timeout timer counting where its SCL is low at the release, else stopped. The model's own
moment, free-value count and queue go on (log 20). A release without a taken reset changes nothing (log 17). -/
def Obligations.ReleaseGivesThePowerOnState : Prop :=
  ∀ (ma1 ma0 : Bool) (a b : Line) (s : State),
    let t : State := { State.reset with
      straps := BitVec.ofBool ma1 ++ BitVec.ofBool ma0, frontEnds := ⟨.powerOn a, .powerOn b⟩,
      now := s.now, freeCount := s.freeCount, pending := s.pending }
    exec (.powerOn ma1 ma0 a b) s = .next t ∧ (s.inReset = true → exec (.resetNRelease ma1 ma0 a b) s = .next t) ∧
      (s.inReset = false → exec (.resetNRelease ma1 ma0 a b) s = .next s) ∧
      t.mgmtAddr.toNat = 0x48 + 2 * ma1.toNat + ma0.toNat ∧
      ∀ p : Port, t.fe p = ⟨.free, .none, .address, false, .released,
        if (match p with | .A => a | .B => b) = .low then .counting else .stopped⟩

/-- RESET_N_LOW releases every line and ends every operation in flight; the stores keep their values until the release (log 10). While
RESET_N is low, no other event has an effect. -/
def Obligations.ResetLowEndsEverything : Prop :=
  (∀ s : State, ∃ t, exec .resetNLow s = .next t ∧ t.inReset = true ∧ attnLow t = false ∧
    (∀ p : Port, t.ctx p = ⟨.idle, none, none⟩ ∧ (t.fe p).hold = false ∧ (t.fe p).drive = .released ∧
      (t.fe p).byte = .none ∧ (t.fe p).bus = .free ∧ t.mgmt p = { s.mgmt p with frame := none, reading := none }) ∧
    (∀ d : Seg, (t.seg d).holder = none ∧ (t.seg d).transfer = none ∧ (t.seg d).bus = .idle ∧ (t.seg d).waiters = [] ∧
      (t.seg d).requests = [] ∧ (t.seg d).resume = none ∧ (t.seg d).state ≠ .held ∧ segLines t d = .released) ∧
    (∀ p, t.staging.state ≠ .committing p) ∧ t.staging.outcome = s.staging.outcome ∧
    t.active = s.active ∧ t.generation = s.generation ∧ t.counters = s.counters ∧ t.cursors = s.cursors ∧
    t.log = s.log ∧ t.mask = s.mask ∧ t.straps = s.straps ∧ t.holdLimits = s.holdLimits ∧ t.pending = s.pending) ∧
  ∀ (c : Instr) (s : State), s.inReset = true → c ≠ .resetNLow →
    (∀ w x y z, c ≠ .powerOn w x y z) → (∀ w x y z, c ≠ .resetNRelease w x y z) → exec c s = .next s

/-! ## Upstream conditions -/

/-- Conditions and bytes on a port that holds nothing. A START begins a transaction on a FREE bus; a STOP on a FREE bus does nothing. On an ACTIVE bus
either condition returns a context in IDLE, UNADDRESSED, FILLER or REFUSING to IDLE (at a repeated START: log 11), and ends a management read with its
selection kept. A view byte that it cuts off counts exactly where its eighth bit has been clocked, which the operand `eighth` tells (log 25). The two
START rows have one effect, by the bus state (log 17). Bytes that pass by a FREE, UNADDRESSED, REFUSING or READ_END port, or after the NAK of a view byte,
have no effect but a clocked bit. -/
def Obligations.ConditionsWithNothingHeld : Prop :=
  (∀ (p : Port) (sda : Line) (eighth : Bool) (s : State), exec (.upstreamStart p sda eighth) s = exec (.repeatedStart p sda eighth) s) ∧
  ∀ (p : Port) (sda : Line) (eighth : Bool) (s : State), s.open p →
    ((s.fe p).bus = .free →
      exec (.upstreamStart p sda eighth) s = .next (s.setFe p (s.fe p).started) ∧
      exec (.repeatedStart p sda eighth) s = .next (s.setFe p (s.fe p).started) ∧
      exec (.stop p sda eighth) s = .next (s.setFe p (s.fe p).clocked)) ∧
    ((s.fe p).bus = .active →
      (s.ctx p).state = .idle ∨ (s.ctx p).state = .unaddressed ∨ (s.ctx p).state = .filler ∨ (s.ctx p).state = .refusing →
      exec (.upstreamStart p sda eighth) s = .next ((s.setFe p (s.fe p).started).setCtx p .idle) ∧
      exec (.repeatedStart p sda eighth) s = .next ((s.setFe p (s.fe p).started).setCtx p .idle) ∧
      exec (.stop p sda eighth) s = .next ((s.setFe p (s.fe p).stoppedBy).setCtx p .idle)) ∧
    ((s.fe p).bus = .active → (s.ctx p).state = .mgmtRead →
      let started := fun m : MgmtUnit => ((s.setFe p (s.fe p).started).setCtx p .idle).setMgmt p { m with reading := none }
      let ended := fun m : MgmtUnit => ((s.setFe p (s.fe p).stoppedBy).setCtx p .idle).setMgmt p { m with reading := none }
      ((∀ b, (s.fe p).byte ≠ .delivering b) →
        exec (.upstreamStart p sda eighth) s = .next (started (s.mgmt p)) ∧
        exec (.repeatedStart p sda eighth) s = .next (started (s.mgmt p)) ∧
        exec (.stop p sda eighth) s = .next (ended (s.mgmt p))) ∧
      ∀ b r, (s.fe p).byte = .delivering b → (s.mgmt p).reading = some r →
        let m := if eighth then (s.mgmt p).viewed r else s.mgmt p
        exec (.upstreamStart p sda eighth) s = .next (started m) ∧
        exec (.repeatedStart p sda eighth) s = .next (started m) ∧
        exec (.stop p sda eighth) s = .next (ended m)) ∧
    (((s.fe p).bus = .free ∧ (s.ctx p).state = .idle) ∨ ((s.fe p).role ≠ .address ∧
        ((s.ctx p).state = .unaddressed ∨ (s.ctx p).state = .refusing ∨ (s.ctx p).state = .readEnd ∨
          ((s.ctx p).state = .mgmtRead ∧ (s.fe p).byte = .none))) →
      ∀ (b : Byte) (x : Ack), ∀ c ∈ [Instr.addressByte p b sda, .frameByte p b, .writeIndexByte p b, .writeDataByte p b, .readByteAck p,
          .readByteNak p, .fillerByteAnswer p x, .viewByteAnswer p x],
        exec c s = .next (s.setFe p (s.fe p).clocked))

/-- A STOP ends an access that holds a segment: the cursor is handed back, absent where the write's index is incomplete, the segment is
closed, with a NAK first where byte n of a read awaits its answer, and the context is IDLE. No record, no claim. -/
def Obligations.StopEndsAHeldAccess : Prop :=
  ∀ (p : Port) (sda : Line) (eighth : Bool) (s : State) (st : CtxState) (a : Access) (d : Seg),
    s.open p → (s.fe p).bus = .active → s.accessing p st a d →
    st = .writeIndex ∨ st = .writeData ∨ st = .readData ∨ st = .readEnd →
    exec (.stop p sda eighth) s = .next
      ((((s.setCursors (handed s a (if st = .writeIndex then none else a.cursor))).setFe p (s.fe p).stoppedBy).setCtx p .idle).setSeg
        d ((s.seg d).closed (if st = .readData ∧ a.count ≠ 0 then some .nak else none)))

/-- A repeated START ends an access that holds a segment, and the context retains the segment with its bus open: the cursor is handed back,
and a read being delivered has its target given NAK and is in READ_END. -/
def Obligations.RepeatedStartRetainsTheSegment : Prop :=
  ∀ (p : Port) (sda : Line) (eighth : Bool) (s : State) (st : CtxState) (a : Access) (d : Seg),
    s.open p → (s.fe p).bus = .active → s.accessing p st a d →
    st = .writeIndex ∨ st = .writeData ∨ st = .readData ∨ st = .readEnd →
    exec (.repeatedStart p sda eighth) s = .next
      ((((s.setCursors (handed s a (if st = .writeIndex then none else a.cursor))).setFe p (s.fe p).started).setCtx p
        ⟨if st = .readData then .readEnd else st, none, some d⟩).setSeg
          d { s.seg d with transfer := (s.seg d).transfer.or (if st = .readData ∧ a.count ≠ 0 then some .nak else none) })

/-- The retained interval: a second repeated START leaves it as it is; a STOP, and an upstream port reset, close and release the segment
with no record, no claim and no hand-back. -/
def Obligations.RetainedIntervalEnds : Prop :=
  ∀ (p : Port) (sda : Line) (eighth : Bool) (s : State) (d : Seg),
    s.open p → (s.fe p).bus = .active → (s.ctx p).access = none → (s.ctx p).retained = some d →
    (s.ctx p).state = .writeIndex ∨ (s.ctx p).state = .writeData ∨ (s.ctx p).state = .readEnd →
    exec (.repeatedStart p sda eighth) s = .next (s.setFe p (s.fe p).started) ∧
    exec (.stop p sda eighth) s =
      .next (((s.setFe p (s.fe p).stoppedBy).setCtx p .idle).setSeg d ((s.seg d).closed none)) ∧
    ((s.fe p).timer ≠ .spent →
      exec (.upstreamBusTimeout p eighth) s = .next (((s.setFe p ⟨.free, .none, .address, false, .released, .spent⟩).setCtx p .idle).setSeg
        d ((s.seg d).closed none)))

/-! ## The address byte -/

/-- Addresses outside the policy. Reserved or unmatched: left unanswered, with no record and no counter change. A write to the management
address: acknowledged, and a frame begins whose check value has the address byte folded in. Where the port retained a segment, its close is requested
first, the clock is held, and the same follows at the release (log 23; `CloseAndRecoveryEndInOrder`). An address matches no entry exactly when no
enabled entry serves the port at it, and in a valid table it matches exactly the enabled entry whose ports include the port and whose upstream address
it is. -/
def Obligations.AddressesOutsideThePolicy : Prop :=
  (∀ (p : Port) (b : Byte) (sda : Line) (s : State), s.awaitsAddress p →
    let u := s.setFe p ((s.fe p).addressed (dirOf b))
    (addressOf b ≠ s.mgmtAddr →
      (addressOf b).toNat < 0x08 ∨ 0x78 ≤ (addressOf b).toNat ∨ matchEntry s.active p (addressOf b) = none →
      ((s.ctx p).retained = none → exec (.addressByte p b sda) s = .next (u.ignored p)) ∧
      ∀ d, (s.ctx p).retained = some d →
        exec (.addressByte p b sda) s = .next (s.awaiting p d (dirOf b) none .unanswered)) ∧
    (addressOf b = s.mgmtAddr → dirOf b = .write →
      ((s.ctx p).retained = none → exec (.addressByte p b sda) s = .next (u.framing p)) ∧
      ∀ d, (s.ctx p).retained = some d → exec (.addressByte p b sda) s = .next (s.awaiting p d .write none .frame))) ∧
  (∀ (p : Port) (x : Addr7) (s : State),
    (matchEntry s.active p x = none ↔
      ∀ n : Fin 32, ¬ (s.active[n].enabled = true ∧ s.active[n].includes p ∧ s.active[n].upAddr = x)) ∧
    (s.activeValid → ∀ n : Fin 32, matchEntry s.active p x = some n ↔
      s.active[n].enabled = true ∧ s.active[n].includes p ∧ s.active[n].upAddr = x)) ∧
  ∀ b : Byte, (addressOf b).toNat = b.toNat / 2 ∧ (dirOf b = .read ↔ b.toNat % 2 = 1)

/-- A read of the management address takes a snapshot of the selected view, reduces the view cursor to the snapshot's length, acknowledges
and delivers from there; the ACK and the first bit of that byte are one step (log 16). Where the port retained a segment, its close is requested first
and the snapshot is taken at the release (log 23). The six views are the bytes that their layouts give, multi-byte values high byte first, with the codes of the tables; a lease's remaining
time is its expiry less the model's moment, at least 1 (log 7). -/
def Obligations.ManagementReadSnapshot : Prop :=
  (∀ (p : Port) (b : Byte) (sda : Line) (s : State), s.awaitsAddress p → addressOf b = s.mgmtAddr → dirOf b = .read →
    ((s.ctx p).retained = none →
      exec (.addressByte p b sda) s = .next ((s.setFe p ((s.fe p).addressed .read)).viewing p)) ∧
    ∀ d, (s.ctx p).retained = some d → exec (.addressByte p b sda) s = .next (s.awaiting p d .read none .snapshot)) ∧
  (∀ w : Word16, wordBytes w = [BitVec.ofNat 8 (w.toNat / 256), BitVec.ofNat 8 (w.toNat % 256)]) ∧
  [none, some Port.A, some .B].map portCode = [0, 1, 2] ∧ [none, some Dir.read, some .write].map dirCode = [0, 1, 2] ∧
  [SegState.disabled, .idle, .held, .recovering, .fault].map segStateCode = [0, 1, 2, 3, 4] ∧
  [Speed.k50, .k100, .k400, .k1000].map speedCode = [0, 1, 2, 3] ∧
  [Reason.noPort, .reservedAddress, .mgmtAddress, .duplicate, .windowBounds, .widthMismatch].map reasonCode = [1, 2, 3, 4, 5, 6] ∧
  [Result.done, .pending, .check, .length, .unknown, .guarded, .owned, .busy, .invalid, .range].map resultCode =
    [0, 1, 2, 3, 4, 5, 6, 7, 8, 9] ∧
  (∀ why, resultCode (.rejected why) = 0x0A#8) ∧
  [Kind.readWindow, .writeWindow, .blindRead, .length, .segmentBusy, .segmentDown, .targetNak, .dataNak, .stall, .stuck, .upstreamLost].map
    kindCode = [1, 2, 3, 4, 5, 6, 7, 8, 9, 10, 11] ∧
  [IndexWidth.zero, .one, .two].map widthCode = [0, 1, 2] ∧
  ∀ (p : Port) (s : State),
    let n8 := BitVec.ofNat 8
    let count := fun n : Nat => wordBytes (BitVec.ofNat 16 n)
    let config := fun c : SegConfig => [speedCode c.speed, n8 c.stall, n8 c.enable.toNat]
    let image := fun e : Entry =>
      [n8 (128 * e.enabled.toNat + 64 * (decide (e.includes .A)).toNat + 32 * (decide (e.includes .B)).toNat + 16 * e.blind.toNat +
          8 * e.quiet.toNat + 4 * e.readWin.present.toNat + 2 * e.writeWin.present.toNat),
        n8 e.upAddr.toNat, n8 (16 * e.segment.val) + widthCode e.width, n8 e.downAddr.toNat, e.limit] ++
      wordBytes e.readWin.low ++ wordBytes e.readWin.high ++ wordBytes e.writeWin.low ++ wordBytes e.writeWin.high
    let m := s.mgmt p
    (m.selection.view = .status → (viewBytes p s).length = 26 ∧ ∀ (staging outcome detail : List Byte),
      (s.staging.state = .free → staging = [0, 0]) →
      (∀ q, s.staging.state = .owned q → staging = [1, portCode (some q)]) →
      (∀ q, s.staging.state = .committing q → staging = [2, portCode (some q)]) →
      (s.staging.outcome = .none → outcome = [0, 0, 0]) →
      (s.staging.outcome = .done → outcome = [1, 0, 0]) →
      (∀ k r, s.staging.outcome = .rejected k r → outcome = [2, n8 k.val, reasonCode r]) →
      (s.staging.outcome = .abandoned → outcome = [3, 0, 0]) →
      ((∀ why, m.result.result ≠ .rejected why) → detail = [0, 0]) →
      (∀ k r, m.result.result = .rejected (.entry k r) → detail = [n8 k.val, reasonCode r]) →
      (m.result.result = .rejected .abandoned → detail = [0xFF, 0x07]) →
      viewBytes p s =
        wordBytes s.generation ++ staging ++ outcome ++
        [n8 ((decide (m.mode = .persistent)).toNat + 2 * (decide (m.guard = .guarded)).toNat + 4 * m.firstError.isSome.toNat),
          n8 m.failures, m.result.command, resultCode m.result.result] ++ detail ++
        [m.result.serial, n8 s.log.records.length] ++ count s.log.dropped ++ wordBytes s.log.next ++
        [n8 ((decide (s.log.records ≠ [] ∨ s.log.dropped ≠ 0)).toNat +
            2 * (decide ((s.mgmt .A).firstError ≠ none ∨ (s.mgmt .B).firstError ≠ none)).toNat +
            4 * (decide (∃ d, (s.seg d).state = .fault)).toNat + 16 * s.mask.log.toNat + 32 * s.mask.check.toNat +
            64 * s.mask.fault.toNat)] ++
        ([0, 1, 2, 3] : List Seg).map (fun d =>
          segStateCode (s.seg d).state + n8 (16 * (portCode ((s.seg d).lease.map Lease.holder)).toNat)) ++
        [n8 (s.holdLimit p), n8 (0x48 + s.straps.toNat)]) ∧
    (∀ n, m.selection.view = .activeEntry n → (viewBytes p s).length = 20 ∧ ∀ cursor : List Byte,
      let i := cursorOf s.cursors s.active[n].target
      (s.active[n].width = .zero ∨ i = none → cursor = [0, 0, 0]) →
      (s.active[n].width ≠ .zero → ∀ v, i = some v → cursor = 1 :: wordBytes v) →
      viewBytes p s = image s.active[n] ++ cursor ++ count s.counters[n].accepted ++ count s.counters[n].denied) ∧
    (∀ n, m.selection.view = .stagedEntry n → (viewBytes p s).length = 13 ∧ viewBytes p s = image s.staging.image[n]) ∧
    (m.selection.view = .log → (viewBytes p s).length = 3 + 12 * s.log.records.length ∧ viewBytes p s =
      n8 s.log.records.length :: count s.log.dropped ++ (s.log.records.map (fun v =>
        wordBytes v.sequence ++
        [kindCode v.report.kind,
          n8 (64 * (portCode v.report.port).toNat + 16 * (dirCode v.report.dir).toNat + v.report.index.isSome.toNat),
          (v.report.upAddr.map (fun x => n8 x.toNat)).getD 0xFF#8, (v.report.entry.map (fun k => n8 k.val)).getD 0xFF#8,
          n8 v.report.segment.val] ++
        wordBytes (v.report.index.getD 0) ++ wordBytes v.report.generation ++ [n8 v.report.offset])).flatten) ∧
    (m.selection.view = .firstError → (viewBytes p s).length = 6 ∧
      (m.firstError = none → viewBytes p s = [0, 0, 0, 0, 0, 0]) ∧
      ∀ e, m.firstError = some e → viewBytes p s = [1, n8 m.failures, e.command, e.received, e.computed, n8 e.bytes]) ∧
    ∀ d, m.selection.view = .segment d → (viewBytes p s).length = 13 ∧ ∀ (pended : List Byte) (left : Nat),
      ((s.seg d).pendingConfig = none → pended = [0, 0, 0, 0]) →
      (∀ c, (s.seg d).pendingConfig = some c → pended = 1 :: config c) →
      ((s.seg d).lease = none → left = 0) →
      (∀ l, (s.seg d).lease = some l → left = max 1 (l.expiry - s.now)) →
      viewBytes p s = segStateCode (s.seg d).state :: config (s.seg d).config ++ pended ++
        [portCode (s.seg d).holder,
          n8 ((decide (∃ w ∈ (s.seg d).waiters, w.port = .A)).toNat + 2 * (decide (∃ w ∈ (s.seg d).waiters, w.port = .B)).toNat),
          portCode ((s.seg d).lease.map Lease.holder)] ++ count left

/-- Steps 1 and 2: a read without a read window and a width-0 write without a write window are refused, with a record and a denied
claim, index absent and offset 0. Where the port retained a segment, its close is requested first, and the refusal follows at the release
(log 23). -/
def Obligations.RefusalAtStepsOneAndTwo : Prop :=
  ∀ (p : Port) (b : Byte) (sda : Line) (s : State) (n : Fin 32) (k : Kind), s.awaitsAddress p →
    addressOf b ≠ s.mgmtAddr → reserved (addressOf b) = false → matchEntry s.active p (addressOf b) = some n →
    ((dirOf b = .read ∧ s.active[n].readWin.present = false ∧ k = .readWindow) ∨
      (dirOf b = .write ∧ s.active[n].width = .zero ∧ s.active[n].writeWin.present = false ∧ k = .writeWindow)) →
    let a : Access := ⟨n, s.active[n], dirOf b, none, none, 0, 0, 0, false⟩
    ((s.ctx p).retained = none → exec (.addressByte p b sda) s = .next
      ((((s.setLog (logged s p a k none 0)).setCounters (denied s a)).setFe p
        (((s.fe p).addressed (dirOf b)).answering .nak)).setCtx p ⟨.refusing, some a, none⟩)) ∧
    ∀ d, (s.ctx p).retained = some d →
      exec (.addressByte p b sda) s = .next (s.awaiting p d (dirOf b) (some a) (.refused k none))

/-- A granted access: the IDLE segment, not leased to the other port, becomes HELD by the port, the cursor is loaded, step 4 passes, and
OPENING drives a START with the entry's downstream address and the access's direction, or runs bus-clear where SDA is found low. Where the port
retained another segment, its close is requested first, and the request of this one, whatever its state, follows at the release (log 23). -/
def Obligations.GrantOpensTheTarget : Prop :=
  ∀ (p : Port) (b : Byte) (sda : Line) (s : State) (n : Fin 32) (d : Seg), s.awaitsAddress p →
    addressOf b ≠ s.mgmtAddr → reserved (addressOf b) = false → matchEntry s.active p (addressOf b) = some n →
    passesStepsOneTwo s.active[n] (dirOf b) → s.active[n].segment = d →
    ((s.ctx p).retained = none → (s.seg d).state = .idle → (∀ l ∈ (s.seg d).lease, l.holder = p) →
      passesStepFour s.active[n] (dirOf b) (loadCursor s.cursors s.active[n]) →
      exec (.addressByte p b sda) s = .next
        (((s.setFe p ((s.fe p).addressed (dirOf b)).holding).setCtx p
          ⟨.opening, some ⟨n, s.active[n], dirOf b, some d, loadCursor s.cursors s.active[n], 0, 0, 0, false⟩, none⟩).setSeg d
            { s.seg d with
              state := .held, holder := some p, openAfter := false
              bus := if sda = .high then .opened else .idle
              transfer := if sda = .high then some (.start false s.active[n].downAddr (dirOf b)) else some .busClear })) ∧
    ∀ e, (s.ctx p).retained = some e → e ≠ d → exec (.addressByte p b sda) s = .next
      (s.awaiting p e (dirOf b) (some ⟨n, s.active[n], dirOf b, none, none, 0, 0, 0, false⟩) (.request sda))

/-- Step 4 at a grant: a read whose cursor is absent with blind reads denied, or outside the read window, is refused; the segment is left
IDLE and the cursor map as it was. (Where the port retained a segment: `GrantOpensTheTarget` for another one, `RetainedSegmentIsKept` for this
one.) -/
def Obligations.RefusalAtStepFour : Prop :=
  ∀ (p : Port) (b : Byte) (sda : Line) (s : State) (n : Fin 32) (d : Seg) (k : Kind), s.awaitsAddress p →
    addressOf b ≠ s.mgmtAddr → reserved (addressOf b) = false → matchEntry s.active p (addressOf b) = some n →
    dirOf b = .read → s.active[n].readWin.present = true → s.active[n].width ≠ .zero → s.active[n].segment = d →
    (s.ctx p).retained = none → (s.seg d).state = .idle → (∀ l ∈ (s.seg d).lease, l.holder = p) → cursorsSorted s.cursors →
    let v := loadCursor s.cursors s.active[n]
    ((v = none ∧ s.active[n].blind = false ∧ k = .blindRead) ∨
      (k = .readWindow ∧ ∃ i ∈ v, i.toNat < s.active[n].readWin.low.toNat ∨ s.active[n].readWin.high.toNat < i.toNat)) →
    let a : Access := ⟨n, s.active[n], .read, none, v, 0, 0, 0, false⟩
    exec (.addressByte p b sda) s = .next
      ((((s.setLog (logged s p a k v 0)).setCounters (denied s a)).setFe p
        (((s.fe p).addressed .read).answering .nak)).setCtx p ⟨.refusing, some a, none⟩)

/-- Step 3 where it does not grant: refused SEGMENT_DOWN in DISABLED and FAULT; waiting, or refused SEGMENT_BUSY for a hold limit of 0, on a
segment that is RECOVERING, HELD by a context, or leased to the other port; kept for the close end during a close (log 18), and likewise while a
bus-clear inside OPENING runs on after a SOFT RESET (log 24). (Where the port retained another segment: `GrantOpensTheTarget`.) -/
def Obligations.RequestAnswers : Prop :=
  ∀ (p : Port) (b : Byte) (sda : Line) (s : State) (n : Fin 32) (d : Seg), s.awaitsAddress p →
    addressOf b ≠ s.mgmtAddr → reserved (addressOf b) = false → matchEntry s.active p (addressOf b) = some n →
    passesStepsOneTwo s.active[n] (dirOf b) → s.active[n].segment = d → (s.ctx p).retained = none →
    let a : Access := ⟨n, s.active[n], dirOf b, none, none, 0, 0, 0, false⟩
    let refusedAs := fun k : Kind => ((((s.setLog (logged s p a k none 0)).setCounters (denied s a)).setFe p
      (((s.fe p).addressed (dirOf b)).answering .nak)).setCtx p ⟨.refusing, some a, none⟩)
    let holding := s.setFe p ((s.fe p).addressed (dirOf b)).holding
    ((s.seg d).state = .disabled ∨ (s.seg d).state = .fault →
      exec (.addressByte p b sda) s = .next (refusedAs .segmentDown)) ∧
    ((s.seg d).state = .recovering ∨ ((s.seg d).state = .held ∧ (s.seg d).holder ≠ none) ∨
        ((s.seg d).state = .idle ∧ ∃ l ∈ (s.seg d).lease, l.holder ≠ p) →
      (s.holdLimit p = 0 → exec (.addressByte p b sda) s = .next (refusedAs .segmentBusy)) ∧
      (s.holdLimit p ≠ 0 → exec (.addressByte p b sda) s = .next ((holding.setCtx p ⟨.waiting, some a, none⟩).setSeg d
        { s.seg d with waiters := (s.seg d).waiters ++ [⟨p, s.holdLimit p, s.now⟩] }))) ∧
    ((s.seg d).state = .held → (s.seg d).holder = none →
      exec (.addressByte p b sda) s = .next ((holding.setCtx p ⟨.matching, some a, none⟩).setSeg d
        { s.seg d with requests := (s.seg d).requests ++ [p] }))

/-- An address byte whose entry names the retained segment keeps it, whatever its lease: the cursor is loaded and OPENING follows, after the
NAK in flight if there is one (log 15). Refused at step 4, the cursor is handed back as loaded and the close requested, and the refusal follows at the
release (log 23). -/
def Obligations.RetainedSegmentIsKept : Prop :=
  ∀ (p : Port) (b : Byte) (sda : Line) (s : State) (n : Fin 32) (d : Seg), s.awaitsAddress p →
    addressOf b ≠ s.mgmtAddr → reserved (addressOf b) = false → matchEntry s.active p (addressOf b) = some n →
    passesStepsOneTwo s.active[n] (dirOf b) → s.active[n].segment = d → (s.ctx p).retained = some d →
    let v := loadCursor s.cursors s.active[n]
    let a : Access := ⟨n, s.active[n], dirOf b, some d, v, 0, 0, 0, false⟩
    let k : Kind := if v = none then .blindRead else .readWindow
    (passesStepFour s.active[n] (dirOf b) v →
      exec (.addressByte p b sda) s = .next
        (((s.setFe p ((s.fe p).addressed (dirOf b)).holding).setCtx p ⟨.opening, some a, none⟩).setSeg d
          (if (s.seg d).transfer = some .nak then { s.seg d with openAfter := true }
           else if sda = .high then { s.seg d with
             transfer := some (.start (decide ((s.seg d).bus = .opened)) s.active[n].downAddr (dirOf b)), bus := .opened, openAfter := false }
           else { s.seg d with transfer := some .busClear, openAfter := false }))) ∧
    (¬ passesStepFour s.active[n] (dirOf b) v →
      exec (.addressByte p b sda) s = .next
        ((s.setCursors (handed s a v)).awaiting p d (dirOf b) (some (a.ended v)) (.refused k v)))

/-! ## Management frames -/

/-- Bytes of a frame up to its check byte, each answered at once: a known command byte and each payload byte are acknowledged and folded
in; an unknown command byte is NAKed with fault UNKNOWN; the check byte is compared, and a mismatch is NAKed with fault CHECK and recorded:
an absent first-error record becomes present, the count rises, and STOPPING guards the port. -/
def Obligations.FrameBytesUpToTheCheck : Prop :=
  ∀ (p : Port) (b : Byte) (s : State) (f : Frame), s.open p → (s.ctx p).state = .mgmtWrite → (s.mgmt p).frame = some f →
    f.fault = none → f.matched = false →
    let after := fun (x : Ack) (m : MgmtUnit) => (s.setFe p ((s.fe p).clocked.answering x)).setMgmt p m
    let m := s.mgmt p
    (∀ n, f.command = none → payloadLength b = some n → exec (.frameByte p b) s = .next
      (after .ack { m with frame := some { f with command := some b, crc := crcFold f.crc b } })) ∧
    (f.command = none → payloadLength b = none → exec (.frameByte p b) s = .next
      (after .nak { m with frame := some { f with command := some b, fault := some .unknown } })) ∧
    (∀ c n, f.command = some c → payloadLength c = some n → f.payload.length < n → exec (.frameByte p b) s = .next
      (after .ack { m with frame := some { f with payload := f.payload ++ [b], crc := crcFold f.crc b } })) ∧
    (∀ c n, f.command = some c → payloadLength c = some n → n ≤ f.payload.length → b = f.crc →
      exec (.frameByte p b) s = .next (after .ack { m with frame := some { f with matched := true } })) ∧
    (∀ c n, f.command = some c → payloadLength c = some n → n ≤ f.payload.length → b ≠ f.crc →
      exec (.frameByte p b) s = .next (after .nak { m with
        frame := some { f with fault := some .check }
        firstError := some (m.firstError.getD ⟨c, b, f.crc, f.payload.length + 1⟩)
        failures := min 255 (m.failures + 1)
        guard := if m.mode = .stopping then .guarded else m.guard }))

/-- A byte after the check byte, or after a fault, is NAKed; a complete and good frame takes the fault LENGTH, and a fault already met is
kept. Nothing else changes. -/
def Obligations.ExtraFrameBytesAreNaked : Prop :=
  ∀ (p : Port) (b : Byte) (s : State) (f : Frame), s.open p → (s.ctx p).state = .mgmtWrite → (s.mgmt p).frame = some f →
    (f.fault = none → f.matched = true → f.command ≠ none →
      exec (.frameByte p b) s = .next ((s.setFe p ((s.fe p).clocked.answering .nak)).setMgmt p
        { s.mgmt p with frame := some { f with fault := some .length } })) ∧
    (f.fault ≠ none → exec (.frameByte p b) s = .next (s.setFe p ((s.fe p).clocked.answering .nak)))

/-- The bytes of every command's frame, sent one after the other, are read back as that command: the assembler ends complete and good, and
its code and payload spell the command. The payload of each command with fields has them in the order of the table of codes, two-byte values high byte
first. A byte is folded into the check value by exclusive-or and eight shifts, each with 0x2F where the bit shifted out was 1, from the start value
0xFF; two worked values of the manual stand at the end. -/
def Obligations.EveryCommandsFrameIsReadBack : Prop :=
  (∀ (c : Command) (p : Port) (s : State) (rest : List Instr), s.open p → (s.ctx p).state = .mgmtWrite →
    (s.mgmt p).frame = some (Frame.start s.mgmtAddr) → s.pending = (frameBytes s.mgmtAddr c).map (Instr.frameByte p) ++ rest →
    commandOf (commandCode c) (commandPayload c) = some c ∧
    ∃ t, Host.Core.run Sys2Proof.core (frameBytes s.mgmtAddr c).length s = .next t ∧
      (t.mgmt p) = { s.mgmt p with frame := some (Frame.good s.mgmtAddr c) } ∧ (t.fe p).drive = .low ∧ t.pending = rest) ∧
  (let hi := fun w : Word16 => BitVec.ofNat 8 (w.toNat / 256)
   let lo := fun w : Word16 => BitVec.ofNat 8 (w.toNat % 256)
   let sent := fun (c : Command) (code : Byte) (payload : List Byte) => commandCode c = code ∧ commandPayload c = payload
   ∀ (x y z u : Byte) (w : Word16) (i : EntryImage),
    sent (.selectView x y z) 0x11 [x, y, z] ∧ sent .clearError 0x12 [] ∧ sent (.setCheckMode x) 0x13 [x] ∧
    sent (.setHoldLimit x) 0x14 [x] ∧ sent (.configureSegment x y z u) 0x21 [x, y, z, u] ∧ sent (.recoverSegment x) 0x22 [x] ∧
    sent (.leaseSegment x w) 0x23 [x, hi w, lo w] ∧ sent (.releaseLease x) 0x24 [x] ∧ sent (.acknowledgeLog w) 0x31 [hi w, lo w] ∧
    sent (.clearCounters x) 0x32 [x] ∧ sent (.invalidateCursor x) 0x33 [x] ∧ sent (.setAttentionMask x) 0x34 [x] ∧
    sent (.stageEntry x w i) 0x41 [x, hi w, lo w, i.flags, i.up, i.segWidth, i.down, i.limit, hi i.readLow, lo i.readLow, hi i.readHigh,
      lo i.readHigh, hi i.writeLow, lo i.writeLow, hi i.writeHigh, lo i.writeHigh] ∧
    sent .revertStaging 0x42 [] ∧ sent .discardStaging 0x43 [] ∧ sent .commit 0x44 [] ∧ sent .softReset 0x5A []) ∧
  (let shift := fun v : Byte => if 128 ≤ v.toNat then (v <<< 1) ^^^ 0x2F#8 else v <<< 1
   ∀ v b : Byte, crcFold v b = shift (shift (shift (shift (shift (shift (shift (shift (v ^^^ b)))))))) ∧
    ∀ (addr : Addr7) (l : List Byte), runningCheck addr l = (BitVec.ofNat 8 (2 * addr.toNat) :: l).foldl crcFold 0xFF#8) ∧
  crcFold 0xFF#8 0x90#8 = 0x0F#8 ∧ runningCheck 0x48#7 [0x12#8] = 0x6A#8

/-- The end of a frame that is not executed, at a STOP or a repeated START (IDLE after the latter: log 11): LENGTH with code 0 for no byte; UNKNOWN,
CHECK or LENGTH with the command byte; LENGTH for a frame cut short. The result record and the serial change, and the owner's idle timer restarts
only after a matched check byte. -/
def Obligations.FramesNotExecuted : Prop :=
  ∀ (p : Port) (sda : Line) (eighth : Bool) (s : State) (f : Frame) (e : Instr) (fe : FrontEnd), s.open p → (s.fe p).bus = .active →
    (s.ctx p).state = .mgmtWrite → (s.mgmt p).frame = some f →
    (e = .stop p sda eighth ∧ fe = (s.fe p).stoppedBy) ∨ (e = .repeatedStart p sda eighth ∧ fe = (s.fe p).started) →
    let u := ((s.setFe p fe).setCtx p .idle).setMgmt p { s.mgmt p with frame := none }
    let m := s.mgmt p
    let wrote := fun (code : Byte) (r : Result) =>
      u.setMgmt p { m with frame := none, result := ⟨code, r, m.result.serial + 1⟩ }
    (f.command = none → exec e s = .next (wrote 0x00#8 .length)) ∧
    (∀ c, f.command = some c → f.fault = some .unknown → exec e s = .next (wrote c .unknown)) ∧
    (∀ c, f.command = some c → f.fault = some .check → exec e s = .next (wrote c .check)) ∧
    (∀ c, f.command = some c → f.fault = some .length → exec e s = .next (reported p c .length u)) ∧
    (∀ c, f.command = some c → f.fault = none → f.matched = false → exec e s = .next (wrote c .length))

/-- A complete and good frame that carries command `c` is executed at its STOP or repeated START, exactly as the row of `c` on the port
then at rest in IDLE (rows of commands: log 5; IDLE at a repeated START: log 11). -/
def Obligations.GoodFrameRunsItsCommand : Prop :=
  ∀ (p : Port) (c : Command) (sda : Line) (eighth : Bool) (s : State), s.open p → (s.fe p).bus = .active → (s.ctx p).state = .mgmtWrite →
    (s.mgmt p).frame = some (Frame.good s.mgmtAddr c) →
    exec (.stop p sda eighth) s = exec (rowOf p c sda)
      (((s.setFe p (s.fe p).stoppedBy).setCtx p .idle).setMgmt p { s.mgmt p with frame := none }) ∧
    exec (.repeatedStart p sda eighth) s = exec (rowOf p c sda)
      (((s.setFe p (s.fe p).started).setCtx p .idle).setMgmt p { s.mgmt p with frame := none })

/-! ## Written bytes and answers to read bytes -/

/-- Written bytes of a traffic write: an index byte is forwarded without checks; a data byte inside its window and limit is forwarded, with the
clock held; any other is refused without forwarding: record, denied, NAK, the segment closed and the cursor handed back as it stands. -/
def Obligations.WrittenBytesForwardedOrRefused : Prop :=
  ∀ (p : Port) (b : Byte) (s : State) (a : Access) (d : Seg), s.open p →
    (s.accessing p .writeIndex a d → exec (.writeIndexByte p b) s = .next
      ((s.setFe p (s.fe p).holding).setSeg d { s.seg d with transfer := some (.indexByte b) })) ∧
    (s.accessing p .writeData a d →
      let inWindow := a.copy.writeWin.present = true ∧ (a.copy.width = .zero ∨
        ∃ i ∈ a.cursor, a.copy.writeWin.low.toNat ≤ i.toNat ∧ i.toNat ≤ a.copy.writeWin.high.toNat)
      let inLimit := a.copy.limit = 0#8 ∨ a.count + 1 ≤ a.copy.limit.toNat
      let refusedAs := fun k : Kind => ((((((s.setCursors (handed s a a.cursor)).setLog
        (logged s p a k (if a.copy.width = .zero then none else a.cursor) a.count)).setCounters (denied s a)).setFe p
          ((s.fe p).clocked.answering .nak)).setCtx p
            ⟨.refusing, some (a.ended a.cursor), (s.ctx p).retained⟩).setSeg d ((s.seg d).closed none))
      (inWindow ∧ inLimit → exec (.writeDataByte p b) s = .next
        ((s.setFe p (s.fe p).holding).setSeg d { s.seg d with transfer := some (.dataByte b) })) ∧
      (¬ inWindow → exec (.writeDataByte p b) s = .next (refusedAs .writeWindow)) ∧
      (inWindow ∧ ¬ inLimit → exec (.writeDataByte p b) s = .next (refusedAs .length)))

/-- The upstream ACK of read byte n: byte n+1 inside its window and limit is fetched with the clock held; otherwise the read is cut short:
NAK to the target, close, hand-back, record, denied, and 0xFF delivered in FILLER. -/
def Obligations.ReadAckFetchesOrCutsShort : Prop :=
  ∀ (p : Port) (s : State) (a : Access) (d : Seg), s.open p → s.accessing p .readData a d →
    let inWindow := a.copy.width = .zero ∨ a.cursor = none ∨
      ∃ i ∈ a.cursor, a.copy.readWin.low.toNat ≤ i.toNat ∧ i.toNat ≤ a.copy.readWin.high.toNat
    let inLimit := a.copy.limit = 0#8 ∨ a.count + 1 ≤ a.copy.limit.toNat
    let cutAs := fun k : Kind => ((((((s.setCursors (handed s a a.cursor)).setLog
      (logged s p a k (if a.copy.width = .zero then none else a.cursor) a.count)).setCounters (denied s a)).setFe p
        ((s.fe p).clocked.sending 0xFF#8)).setCtx p
          ⟨.filler, some (a.ended a.cursor), (s.ctx p).retained⟩).setSeg d ((s.seg d).closed (some .nak)))
    (inWindow ∧ inLimit → exec (.readByteAck p) s = .next
      ((s.setFe p (s.fe p).holding).setSeg d { s.seg d with transfer := some .fetch })) ∧
    (¬ inWindow → exec (.readByteAck p) s = .next (cutAs .readWindow)) ∧
    (inWindow ∧ ¬ inLimit → exec (.readByteAck p) s = .next (cutAs .length))

/-- The upstream NAK of read byte n: NAK to the target on byte n, and READ_END with the segment held, its bus open and the cursor kept; no
record, no claim. -/
def Obligations.ReadNakEntersReadEnd : Prop :=
  ∀ (p : Port) (s : State) (a : Access) (d : Seg), s.open p → s.accessing p .readData a d →
    exec (.readByteNak p) s = .next
      (((s.setFe p (s.fe p).clocked.silent).setCtx p { s.ctx p with state := .readEnd }).setSeg d
        { s.seg d with transfer := some .nak })

/-- Answers to bytes that need no target: a filler byte's ACK is answered with another 0xFF and its NAK with REFUSING, and so are those of a fetched byte
that SOFT RESET found in delivery (log 26); a view byte advances the position, with wrap, stored unless a SOFT RESET has ended that, and its ACK is
answered with the next byte. -/
def Obligations.FillerAndViewAnswers : Prop :=
  ∀ (p : Port) (s : State), s.open p →
    ((s.ctx p).state = .filler →
      exec (.fillerByteAnswer p .ack) s = .next (s.setFe p ((s.fe p).clocked.sending 0xFF#8)) ∧
      exec (.fillerByteAnswer p .nak) s = .next
        ((s.setFe p (s.fe p).clocked.silent).setCtx p { s.ctx p with state := .refusing })) ∧
    ∀ (r : ReadPosition) (b : Byte), (s.ctx p).state = .mgmtRead → (s.mgmt p).reading = some r → (s.fe p).byte = .delivering b →
      let pos := (r.pos + 1) % r.snapshot.length
      let m := { s.mgmt p with
        reading := some { r with pos := pos }
        selection := if r.stored then ⟨(s.mgmt p).selection.view, pos⟩ else (s.mgmt p).selection }
      exec (.viewByteAnswer p .ack) s = .next
        ((s.setFe p ((s.fe p).clocked.sending (r.snapshot.getD pos 0xFF#8))).setMgmt p m) ∧
      exec (.viewByteAnswer p .nak) s = .next ((s.setFe p (s.fe p).clocked.silent).setMgmt p m)

/-- The upstream port reset, at the expiry of the timeout timer in any state in which the part does not hold the clock; a spent timer does not expire
again. The front end is FREE and the context IDLE. An access that holds a segment is closed with its cursor handed back and UPSTREAM_LOST recorded,
without a denied claim, and before byte 0 has been fetched with no NAK to the target (`TargetAddressAnswered`, log 16); a frame in assembly ends LENGTH
with the serial advanced; a management read ends with its selection kept, a byte that it cuts off counted exactly where its eighth bit has been clocked,
which the operand `eighth` tells (log 25); in the other states nothing else happens. The index recorded in WRITE_INDEX is absent (log 12). The timer's
phases are the model's reading (log 14). -/
def Obligations.UpstreamPortReset : Prop :=
  ∀ (p : Port) (eighth : Bool) (s : State), s.clockFree p →
    ((s.fe p).timer = .spent → exec (.upstreamBusTimeout p eighth) s = .next s) ∧
    ((s.fe p).timer ≠ .spent →
      let base := (s.setFe p ⟨.free, .none, .address, false, .released, .spent⟩).setCtx p .idle
      ((s.ctx p).state = .idle ∨ (s.ctx p).state = .unaddressed ∨ (s.ctx p).state = .filler ∨ (s.ctx p).state = .refusing →
        exec (.upstreamBusTimeout p eighth) s = .next base) ∧
      (∀ st a d, s.accessing p st a d → st = .writeIndex ∨ st = .writeData ∨ st = .readData ∨ st = .readEnd →
        let v := if st = .writeIndex then none else a.cursor
        exec (.upstreamBusTimeout p eighth) s = .next
          (((base.setCursors (handed s a v)).setLog
            (logged s p a .upstreamLost (if a.copy.width = .zero then none else v) a.count)).setSeg d
              ((s.seg d).closed (if st = .readData ∧ a.count ≠ 0 then some .nak else none)))) ∧
      (∀ f, (s.ctx p).state = .mgmtWrite → (s.mgmt p).frame = some f →
        exec (.upstreamBusTimeout p eighth) s = .next (base.setMgmt p { s.mgmt p with
          frame := none, result := ⟨f.command.getD 0x00#8, .length, (s.mgmt p).result.serial + 1⟩ })) ∧
      ((s.ctx p).state = .mgmtRead →
        ((∀ b, (s.fe p).byte ≠ .delivering b) →
          exec (.upstreamBusTimeout p eighth) s = .next (base.setMgmt p { s.mgmt p with reading := none })) ∧
        ∀ b r, (s.fe p).byte = .delivering b → (s.mgmt p).reading = some r →
          let m := if eighth then (s.mgmt p).viewed r else s.mgmt p
          exec (.upstreamBusTimeout p eighth) s = .next (base.setMgmt p { m with reading := none })))

/-! ## Targets' answers -/

/-- The target's answer to the translated address. ACK: the upstream ACK, accepted, and WRITE_INDEX, WRITE_DATA or READ_DATA. Of a read, byte 0 is
fetched under a clock hold that begins after the ninth bit, with SDA released. The operand `ninth` says whether the controller clocks that bit before
anything else reaches the access; if so, the ACK, the beginning of the fetch and the release of SDA are one step, and if not, SCL is released with the
ACK on SDA, the timeout timer counts, and no transfer is in flight (log 16). NAK: the upstream NAK, close, the cursor handed back as loaded,
TARGET_NAK unless quiet, denied. -/
def Obligations.TargetAddressAnswered : Prop :=
  ∀ (d : Seg) (again : Bool) (x : Addr7) (dir : Dir) (p : Port) (a : Access) (s : State), s.transferring d (.start again x dir) p a →
    (∀ ninth, a.dir = .write → exec (.targetAddressAnswer d .ack ninth) s = .next
      ((((s.setCounters (accepted s a)).setFe p ((s.fe p).answering .ack)).setCtx p
        { s.ctx p with state := if a.copy.width = .zero then .writeData else .writeIndex }).setSeg d
          { s.seg d with transfer := none })) ∧
    (a.dir = .read → exec (.targetAddressAnswer d .ack true) s = .next
      ((((s.setCounters (accepted s a)).setFe p (s.fe p).holding).setCtx p
        { s.ctx p with state := .readData }).setSeg d { s.seg d with transfer := some .fetch })) ∧
    (a.dir = .read → exec (.targetAddressAnswer d .ack false) s = .next
      ((((s.setCounters (accepted s a)).setFe p ((s.fe p).answering .ack)).setCtx p
        { s.ctx p with state := .readData }).setSeg d { s.seg d with transfer := none })) ∧
    ∀ ninth, exec (.targetAddressAnswer d .nak ninth) s = .next
      ((((((s.setCursors (handed s a a.cursor)).setLog
        (logged s p a .targetNak (if a.copy.width = .zero then none else a.cursor) 0)).setCounters (denied s a)).setFe p
          ((s.fe p).answering .nak)).setCtx p ⟨.refusing, some (a.ended a.cursor), (s.ctx p).retained⟩).setSeg d
            ({ s.seg d with transfer := none }.closed none))

/-- The target's answer to an index byte. ACK: the byte joins the index value, and the last one makes the cursor that value and enters
WRITE_DATA. NAK: close, an absent cursor handed back, DATA_NAK unless quiet with index absent and offset 0, denied. -/
def Obligations.IndexByteAnswered : Prop :=
  ∀ (d : Seg) (b : Byte) (p : Port) (a : Access) (s : State), s.transferring d (.indexByte b) p a → (s.ctx p).retained = none →
    let v : Word16 := (a.indexValue <<< 8) ||| b.zeroExtend 16
    let full : Bool := a.indexBytes + 1 = a.copy.width.bytes
    exec (.indexByteAnswer d .ack) s = .next
      (((s.setFe p ((s.fe p).answering .ack)).setCtx p
        ⟨if full then .writeData else .writeIndex,
          some { a with indexBytes := a.indexBytes + 1, indexValue := v, cursor := if full then some v else a.cursor },
          none⟩).setSeg d { s.seg d with transfer := none }) ∧
    exec (.indexByteAnswer d .nak) s = .next
      ((((((s.setCursors (handed s a none)).setLog (logged s p a .dataNak none 0)).setCounters (denied s a)).setFe p
        ((s.fe p).answering .nak)).setCtx p ⟨.refusing, some (a.ended none), none⟩).setSeg d
          ({ s.seg d with transfer := none }.closed none))

/-- The target's answer to a data byte. ACK: the count rises, saturating, and a present cursor advances with the wrap of its width. NAK: close, an
absent cursor handed back, DATA_NAK unless quiet with the byte's index and the count before it, denied. -/
def Obligations.DataByteAnswered : Prop :=
  ∀ (d : Seg) (b : Byte) (p : Port) (a : Access) (s : State), s.transferring d (.dataByte b) p a →
    exec (.dataByteAnswer d .ack) s = .next
      (((s.setFe p ((s.fe p).answering .ack)).setCtx p { s.ctx p with access := some { a with
        count := min 255 (a.count + 1)
        cursor := match a.copy.width with
          | .zero => none
          | .one => a.cursor.map (fun i => (i + 1) &&& 0x00FF#16)
          | .two => a.cursor.map (fun i => i + 1) } }).setSeg d { s.seg d with transfer := none }) ∧
    exec (.dataByteAnswer d .nak) s = .next
      ((((((s.setCursors (handed s a none)).setLog
        (logged s p a .dataNak (if a.copy.width = .zero then none else a.cursor) a.count)).setCounters (denied s a)).setFe p
          ((s.fe p).answering .nak)).setCtx p ⟨.refusing, some (a.ended none), (s.ctx p).retained⟩).setSeg d
            ({ s.seg d with transfer := none }.closed none))

/-- A byte fetched for its holder: the count rises, saturating, a present cursor advances, and the byte's first bit is on SDA with the clock
released. -/
def Obligations.FetchedByteIsDelivered : Prop :=
  ∀ (d : Seg) (b : Byte) (p : Port) (a : Access) (s : State), s.transferring d .fetch p a →
    exec (.fetchedByte d b) s = .next
      (((s.setFe p ((s.fe p).sending b)).setCtx p { s.ctx p with access := some { a with
        count := min 255 (a.count + 1)
        cursor := match a.copy.width with
          | .zero => none
          | .one => a.cursor.map (fun i => (i + 1) &&& 0x00FF#16)
          | .two => a.cursor.map (fun i => i + 1) } }).setSeg d { s.seg d with transfer := none })

/-- Ends of transfers that reach no context. A NAK transfer: nothing but the transfer ends, except that an OPENING that waited for it begins with its
START or its bus-clear (log 15). A transfer that a SOFT RESET left without its holder: an answer is discarded, and a fetched byte is given NAK. -/
def Obligations.TransfersThatReachNoContext : Prop :=
  ∀ (d : Seg) (s : State), s.inReset = false →
    (∀ sda, (s.seg d).transfer = some .nak →
      ((s.seg d).openAfter = false → exec (.nakOfByteEnd d sda) s = .next (s.setSeg d { s.seg d with transfer := none })) ∧
      (∀ p a, (s.seg d).openAfter = true → (s.seg d).holder = some p → (s.ctx p).access = some a →
        exec (.nakOfByteEnd d sda) s = .next (s.setSeg d
          (if sda = .high then { s.seg d with
             transfer := some (.start (decide ((s.seg d).bus = .opened)) a.copy.downAddr a.dir), bus := .opened, openAfter := false }
           else { s.seg d with transfer := some .busClear, openAfter := false })))) ∧
    ((s.seg d).holder = none →
      (∀ x ninth again y dir, (s.seg d).transfer = some (.start again y dir) →
        exec (.targetAddressAnswer d x ninth) s = .next (s.setSeg d { s.seg d with transfer := none })) ∧
      (∀ x b, (s.seg d).transfer = some (.indexByte b) →
        exec (.indexByteAnswer d x) s = .next (s.setSeg d { s.seg d with transfer := none })) ∧
      (∀ x b, (s.seg d).transfer = some (.dataByte b) →
        exec (.dataByteAnswer d x) s = .next (s.setSeg d { s.seg d with transfer := none })) ∧
      ∀ b, (s.seg d).transfer = some .fetch →
        exec (.fetchedByte d b) s = .next (s.setSeg d { s.seg d with transfer := some .nak }))

/-! ## Close, stall, recovery -/

/-- A close, and a recovery that succeeds, leave the segment IDLE under the pending configuration where there is one, or DISABLED without a lease
where that turns enable off. With no waiter and no request nothing else happens (first clause). Under enable off every waiter and every request kept
by the segment is refused SEGMENT_DOWN with its record, its NAK and its denied claim (second clause; order in the log: log 8). Otherwise the requests
made during a close, and during a bus-clear inside OPENING that ran on after a SOFT RESET (log 24), are answered in their order, each against the
segment as the earlier answers left it, as they are where a stall takes the segment to RECOVERING (third clause). The address byte that waits for the
release of the segment comes to its outcome after all that, at the end or the stall of the close (fourth clause; logs 8, 23). -/
def Obligations.CloseAndRecoveryEndInOrder : Prop :=
  (∀ (d : Seg) (sda : Line) (s : State), s.inReset = false → (s.seg d).waiters = [] → (s.seg d).requests = [] →
    (s.seg d).resume = none →
    let c := (s.seg d).pendingConfig.getD (s.seg d).config
    let off := (s.seg d).pendingConfig.isSome ∧ c.enable = false
    let t := s.setSeg d { s.seg d with
      state := if off then .disabled else .idle, holder := none, bus := .idle, transfer := none, openAfter := false,
      config := c, pendingConfig := none, lease := if off then none else (s.seg d).lease }
    ((s.seg d).state = .held → (s.seg d).holder = none → (s.seg d).transfer = none →
      exec (.closeEnd d sda) s = .next t) ∧
    ((s.seg d).state = .recovering → exec (.recoveryEnd d .high sda) s = .next t)) ∧
  (∀ (d : Seg) (sda : Line) (s : State) (e : Instr) (c : SegConfig) (ws : List (Port × Access)), s.inReset = false →
    (s.seg d).holder = none → (s.seg d).resume = none → (s.seg d).pendingConfig = some c → c.enable = false → s.askingAre d ws →
    (e = .closeEnd d sda ∧ (s.seg d).state = .held ∧ (s.seg d).transfer = none) ∨
      (e = .recoveryEnd d .high sda ∧ (s.seg d).state = .recovering) ∨
      (e = .openingBusClearEnd d .high sda ∧ (s.seg d).state = .held ∧ (s.seg d).transfer = some .busClear) →
    ∃ t, exec e s = .next t ∧ LogTakes (s.downReports ws)
      ((s.refusedDown ws).setSeg d { s.seg d with
        state := .disabled, bus := .idle, transfer := none, openAfter := false, config := c, pendingConfig := none, lease := none,
        waiters := [], requests := [] }) t) ∧
  (∀ (d : Seg) (s t : State) (e : Instr) (earlier : List Port) (p : Port) (a : Access) (sda : Line), s.inReset = false →
    (s.seg d).state = .held → (s.seg d).holder = none → (s.seg d).resume = none → (s.seg d).requests = earlier ++ [p] →
    ((e = .closeEnd d sda ∨ e = .openingBusClearEnd d .high sda) ∧ ∀ c ∈ (s.seg d).pendingConfig, c.enable = true) ∨
      (e = .stallTimeout d ∧ (s.seg d).transfer ≠ some .busClear) →
    exec e (s.setSeg d { s.seg d with requests := earlier }) = .next t → (t.ctx p).access = some a →
    ∃ u, exec e s = .next u ∧ t.Answers d p a sda u) ∧
  ∀ (d : Seg) (sda : Line) (s t : State) (e : Instr) (r : Resume), s.inReset = false → (s.seg d).state = .held →
    (s.seg d).holder = none → (s.seg d).transfer ≠ some .busClear → (s.seg d).resume = some r →
    e = .closeEnd d sda ∨ e = .stallTimeout d → exec e (s.setSeg d { s.seg d with resume := none }) = .next t →
    ∃ u, exec e s = .next u ∧ t.Resolves r.port r.outcome u

/-- The events that leave a segment available (a close end, a recovery that succeeds, the success of a bus-clear inside OPENING that ran on after a SOFT
RESET) grant it to the first waiter that no lease bars, with SDA high or low; the others stay. Where that waiter is refused at step 4, the event goes
on as without it; where every waiter is barred, all stay. (Requests kept by the segment and an address byte that waits for its release come after:
`CloseAndRecoveryEndInOrder`.) -/
def Obligations.CloseEndGrantsTheFirstWaiter : Prop :=
  ∀ (d : Seg) (sda : Line) (s : State) (e : Instr), s.inReset = false →
    (s.seg d).holder = none → (s.seg d).requests = [] → (s.seg d).resume = none → (∀ c ∈ (s.seg d).pendingConfig, c.enable = true) →
    (e = .closeEnd d sda ∧ (s.seg d).state = .held ∧ (s.seg d).transfer = none) ∨
      (e = .recoveryEnd d .high sda ∧ (s.seg d).state = .recovering) ∨
      (e = .openingBusClearEnd d .high sda ∧ (s.seg d).state = .held ∧ (s.seg d).transfer = some .busClear) →
    let left := fun ws : List Waiter => s.setSeg d { s.seg d with
      state := .idle, bus := .idle, transfer := none, openAfter := false,
      config := (s.seg d).pendingConfig.getD (s.seg d).config, pendingConfig := none, waiters := ws }
    ((∀ w ∈ (s.seg d).waiters, ∃ l ∈ (s.seg d).lease, l.holder ≠ w.port) → exec e s = .next (left (s.seg d).waiters)) ∧
    ∀ (before after : List Waiter) (w : Waiter) (a : Access),
      (s.seg d).waiters = before ++ w :: after → (∀ x ∈ before ++ after, x.port ≠ w.port) →
      (∀ x ∈ before, ∃ l ∈ (s.seg d).lease, l.holder ≠ x.port) → (∀ l ∈ (s.seg d).lease, l.holder = w.port) →
      (s.ctx w.port).access = some a →
      (passesStepFour a.copy a.dir (loadCursor s.cursors a.copy) →
        exec e s = .next ((left (before ++ after)).grantedTo w.port d sda a)) ∧
      (¬ passesStepFour a.copy a.dir (loadCursor s.cursors a.copy) →
        exec e s = exec e ((s.setSeg d { s.seg d with waiters := before ++ after }).refusedAtFour w.port a))

/-- A failed recovery, by its final sample or by a stall: FAULT, or DISABLED under a pending enable off, the lease removed, and a STUCK record
that belongs to no access; its waiters, with any request kept by the segment, are off their lists and in REFUSING with NAK, each with its SEGMENT_DOWN
record and its denied claim, the records handed to the log together (order: log 8). (The first clause is for none of them, the last gives the whole
next state.) -/
def Obligations.FailedRecoveryFaults : Prop :=
  ∀ (d : Seg) (sda : Line) (s : State), s.inReset = false → (s.seg d).state = .recovering →
    let c := (s.seg d).pendingConfig.getD (s.seg d).config
    let off := (s.seg d).pendingConfig.isSome ∧ c.enable = false
    let left := { s.seg d with
      state := if off then .disabled else .fault, holder := none, bus := .idle, transfer := none, openAfter := false,
      config := c, pendingConfig := none, lease := none, waiters := [], requests := [] }
    ((s.seg d).waiters = [] → (s.seg d).requests = [] →
      let t := (s.setLog (s.log.take ⟨.stuck, none, none, none, none, d, none, s.generation, 0⟩)).setSeg d left
      exec (.recoveryEnd d .low sda) s = .next t ∧ exec (.stallTimeout d) s = .next t) ∧
    (∃ t, exec (.recoveryEnd d .low sda) s = .next t ∧ exec (.stallTimeout d) s = .next t ∧ t.seg d = left ∧
      ∀ p ∈ (s.seg d).waiters.map Waiter.port ++ (s.seg d).requests,
        (t.ctx p).state = .refusing ∧ (t.fe p).hold = false ∧ (t.fe p).drive = .released) ∧
    ∀ ws, s.askingAre d ws →
      ∃ t, exec (.recoveryEnd d .low sda) s = .next t ∧ exec (.stallTimeout d) s = .next t ∧
        LogTakes (s.downReports ws ++ [⟨.stuck, none, none, none, none, d, none, s.generation, 0⟩])
          ((s.refusedDown ws).setSeg d left) t

/-- A stall of a transfer for an access: STALL recorded with the cursor before the stall, denied, an absent cursor handed back, the segment
RECOVERING (its bus taken as open: log 21) with its lease, waiters and pending configuration kept, and the answer upstream by the phase: NAK of an
address or written byte (in OPENING also for a stall of the NAK that a deferred START waits for: log 15), 0xFF for a byte being fetched, none after
the upstream NAK. -/
def Obligations.StallOfAnAccess : Prop :=
  ∀ (d : Seg) (x : Transfer) (p : Port) (a : Access) (s : State), s.transferring d x p a → x ≠ .busClear →
    (s.seg d).state = .held → (s.seg d).requests = [] →
    let base := (((s.setCursors (handed s a none)).setLog
      (logged s p a .stall (if a.copy.width = .zero then none else a.cursor) a.count)).setCounters (denied s a)).setSeg d
        { s.seg d with state := .recovering, holder := none, bus := .opened, transfer := none, openAfter := false }
    let ctx := fun st : CtxState => (⟨st, some (a.ended none), (s.ctx p).retained⟩ : Context)
    ((s.ctx p).state = .opening ∨ (s.ctx p).state = .writeIndex ∨ (s.ctx p).state = .writeData →
      exec (.stallTimeout d) s = .next ((base.setFe p ((s.fe p).answering .nak)).setCtx p (ctx .refusing))) ∧
    ((s.ctx p).state = .readData →
      exec (.stallTimeout d) s = .next ((base.setFe p ((s.fe p).sending 0xFF#8)).setCtx p (ctx .filler))) ∧
    ((s.ctx p).state = .readEnd → exec (.stallTimeout d) s = .next (base.setCtx p (ctx .refusing)))

/-- A stall that reaches no access makes no record and no claim: in the retained interval the context is IDLE (log 11) and no longer retains the
segment; during a close nothing but the segment changes, where no context requests it or waits for its release (`CloseAndRecoveryEndInOrder`). The bus of the RECOVERING segment is taken as open (log 21). -/
def Obligations.StallWithoutAnAccess : Prop :=
  ∀ (d : Seg) (s : State), s.inReset = false → (s.seg d).state = .held → (s.seg d).transfer ≠ some .busClear →
    (s.seg d).requests = [] →
    let t := s.setSeg d
      { s.seg d with state := .recovering, holder := none, bus := .opened, transfer := none, openAfter := false }
    ((s.seg d).holder = none → (s.seg d).resume = none → exec (.stallTimeout d) s = .next t) ∧
    ∀ p, (s.seg d).holder = some p → (s.seg d).transfer = some .nak → (s.ctx p).access = none →
      exec (.stallTimeout d) s = .next (t.setCtx p .idle)

/-- The end of bus-clear inside OPENING. SDA released: the holder's START is driven with the translated address. SDA low, or a stall: FAULT or DISABLED,
the lease removed, the address NAKed, STUCK recorded for the access with its cursor as loaded, denied, an absent cursor handed back. With no holder
left, the segment leaves as after a recovery without an access (log 24 for the requests made meanwhile). At a failure each waiter, and each request kept
by the segment, is refused SEGMENT_DOWN with its record and denied claim, all records handed to the log together with STUCK (order: log 8). -/
def Obligations.OpeningBusClearEnds : Prop :=
  ∀ (d : Seg) (sda : Line) (s : State), s.inReset = false → (s.seg d).state = .held → (s.seg d).transfer = some .busClear →
    let c := (s.seg d).pendingConfig.getD (s.seg d).config
    let off := (s.seg d).pendingConfig.isSome ∧ c.enable = false
    let left := fun (st : SegState) (l : Option Lease) => { s.seg d with
      state := if off then .disabled else st, holder := none, bus := .idle, transfer := none, openAfter := false,
      config := c, pendingConfig := none, lease := if off then none else l, waiters := [], requests := [] }
    (∀ p a, (s.seg d).holder = some p → (s.ctx p).access = some a → a.held = some d →
      exec (.openingBusClearEnd d .high sda) s =
        .next (s.setSeg d { s.seg d with transfer := some (.start false a.copy.downAddr a.dir), bus := .opened }) ∧
      let index := if a.copy.width = .zero then none else a.cursor
      let refused := (((s.setCursors (handed s a none)).setCounters (denied s a)).setFe p ((s.fe p).answering .nak)).setCtx p
        ⟨.refusing, some (a.ended none), (s.ctx p).retained⟩
      ((s.seg d).waiters = [] → (s.seg d).requests = [] →
        let t := (refused.setLog (logged s p a .stuck index 0)).setSeg d (left .fault none)
        exec (.openingBusClearEnd d .low sda) s = .next t ∧ exec (.stallTimeout d) s = .next t) ∧
      ∀ ws, s.askingAre d ws → (∀ x ∈ ws, x.1 ≠ p) →
        ∃ t, exec (.openingBusClearEnd d .low sda) s = .next t ∧ exec (.stallTimeout d) s = .next t ∧
          LogTakes (s.downReports ws ++
              [⟨.stuck, some p, some a.dir, some a.copy.upAddr, some a.entryNo, a.copy.segment, index, s.generation, 0⟩])
            ((refused.refusedDown ws).setSeg d (left .fault none)) t) ∧
    ((s.seg d).holder = none →
      ((s.seg d).waiters = [] → (s.seg d).requests = [] →
        exec (.openingBusClearEnd d .high sda) s = .next (s.setSeg d (left .idle (s.seg d).lease)) ∧
        exec (.openingBusClearEnd d .low sda) s = .next
          ((s.setLog (s.log.take ⟨.stuck, none, none, none, none, d, none, s.generation, 0⟩)).setSeg d (left .fault none))) ∧
      ∀ ws, s.askingAre d ws →
        ∃ t, exec (.openingBusClearEnd d .low sda) s = .next t ∧ exec (.stallTimeout d) s = .next t ∧
          LogTakes (s.downReports ws ++ [⟨.stuck, none, none, none, none, d, none, s.generation, 0⟩])
            ((s.refusedDown ws).setSeg d (left .fault none)) t)

/-! ## Timers and commits -/

/-- Expiries, by the model's moment (log 3). A waiter's hold limit: off the list, NAK, SEGMENT_BUSY, denied, the segment otherwise as it was. A lease:
removed, and on an IDLE segment the waiter that it barred is granted, or refused at step 4. The ownership idle timer: the image reloaded, FREE, the
last outcome kept. Where the timer does not run, or a renewal or restart taken first has moved its end, there is no effect (log 6). -/
def Obligations.TimersExpire : Prop :=
  (∀ (p : Port) (a : Access) (s : State), s.inReset = false → (s.ctx p).state = .waiting → (s.ctx p).access = some a →
    ((∃ w ∈ (s.seg a.copy.segment).waiters, w.port = p ∧ w.since + w.limit ≤ s.now) →
      exec (.holdLimitExpiry p) s = .next
        (((((s.setLog (logged s p a .segmentBusy none 0)).setCounters (denied s a)).setFe p ((s.fe p).answering .nak)).setCtx p
          { s.ctx p with state := .refusing }).setSeg a.copy.segment { s.seg a.copy.segment with
            waiters := (s.seg a.copy.segment).waiters.filter (fun w => w.port ≠ p) })) ∧
    ((∀ w ∈ (s.seg a.copy.segment).waiters, w.port = p → s.now < w.since + w.limit) →
      exec (.holdLimitExpiry p) s = .next s)) ∧
  (∀ (p : Port) (s : State), s.inReset = false → (s.ctx p).state ≠ .waiting → exec (.holdLimitExpiry p) s = .next s) ∧
  (∀ (d : Seg) (sda : Line) (s : State) (l : Lease), s.inReset = false → (s.seg d).lease = some l →
    (s.now < l.expiry → exec (.leaseExpiry d sda) s = .next s) ∧
    (l.expiry ≤ s.now →
      ((s.seg d).state ≠ .idle ∨ (s.seg d).waiters = [] →
        exec (.leaseExpiry d sda) s = .next (s.setSeg d { s.seg d with lease := none })) ∧
      ∀ w a, (s.seg d).state = .idle → (s.seg d).waiters = [w] → (s.ctx w.port).access = some a →
        let u := s.setSeg d { s.seg d with lease := none, waiters := [] }
        (passesStepFour a.copy a.dir (loadCursor s.cursors a.copy) →
          exec (.leaseExpiry d sda) s = .next (u.grantedTo w.port d sda a)) ∧
        (¬ passesStepFour a.copy a.dir (loadCursor s.cursors a.copy) →
          exec (.leaseExpiry d sda) s = .next (u.refusedAtFour w.port a)))) ∧
  (∀ (d : Seg) (sda : Line) (s : State), s.inReset = false → (s.seg d).lease = none → exec (.leaseExpiry d sda) s = .next s) ∧
  (∀ (p : Port) (since : Nat) (s : State), s.inReset = false → s.staging.state = .owned p → s.staging.timer = .counting since →
    (since + 500 ≤ s.now →
      exec .ownershipIdleTimeout s = .next (s.setStaging ⟨s.active, .free, .stopped, s.staging.outcome⟩)) ∧
    (s.now < since + 500 → exec .ownershipIdleTimeout s = .next s)) ∧
  ∀ s : State, s.inReset = false → (∀ p, s.staging.state ≠ .owned p) → exec .ownershipIdleTimeout s = .next s

/-- A valid completion: the image becomes the active table, the generation advances, changed entries' counters are zeroed, contexts of changed entries
and touched targets are detached, and the result is DONE under the serial that the record holds. The cursor map's keys follow the new table: one for
each target that an enabled entry of width 1 or 2 names, with that width; the cursor of a target that a changed entry names, in its old or its new
content, is absent, as is that of a new key; every other key keeps its cursor. -/
def Obligations.ValidCommitCompletes : Prop :=
  ∀ (p : Port) (s : State), s.inReset = false → s.staging.state = .committing p → validate s.mgmtAddr s.staging.image = none →
    ∃ t, exec .commitCompletion s = .next t ∧ t.active = s.staging.image ∧ t.generation = s.generation + 1 ∧
      (∀ n : Fin 32, t.counters[n] = if s.active[n] = s.staging.image[n] then s.counters[n] else ⟨0, 0⟩) ∧
      t.cursors = committedCursors s.active s.staging.image s.cursors ∧
      t.staging = ⟨s.staging.image, .free, .stopped, .done⟩ ∧
      t.mgmt p = { s.mgmt p with result := ⟨0x44#8, .done, (s.mgmt p).result.serial⟩ } ∧
      t.mgmt (other p) = s.mgmt (other p) ∧
      (∀ q, (t.ctx q).state = (s.ctx q).state ∧ (t.ctx q).retained = (s.ctx q).retained ∧
        (t.ctx q).access = (s.ctx q).access.map (fun a => { a with detached := a.detached ||
          (s.active[a.entryNo] ≠ s.staging.image[a.entryNo]) ||
          (a.held.isSome && touched s.active s.staging.image a.copy.target) })) ∧
      t.frontEnds = s.frontEnds ∧ t.segments = s.segments ∧ t.log = s.log ∧ t.mask = s.mask ∧ t.holdLimits = s.holdLimits ∧
      t.straps = s.straps ∧ t.inReset = false ∧ t.now = s.now ∧ t.freeCount = s.freeCount ∧ t.pending = s.pending ∧
      (∀ x : Target, touched s.active s.staging.image x = true ↔
        ∃ n : Fin 32, s.active[n] ≠ s.staging.image[n] ∧ (s.active[n].target = x ∨ s.staging.image[n].target = x)) ∧
      cursorsSorted t.cursors ∧ cursorsNamed s.staging.image t.cursors ∧
      ∀ r ∈ t.cursors,
        (touched s.active s.staging.image r.target = true → r.cursor = none) ∧
        ((∀ x ∈ s.cursors, x.target ≠ r.target) → r.cursor = none) ∧
        (touched s.active s.staging.image r.target = false → cursorsSorted s.cursors →
          ∀ x ∈ s.cursors, x.target = r.target → r.cursor = x.cursor)

/-- An invalid completion: entry k failing for reason r is reported under COMMIT with the serial kept, the outcome records it, ownership returns
with its idle timer at zero, and nothing else changes. -/
def Obligations.InvalidCommitCompletes : Prop :=
  ∀ (p : Port) (k : Fin 32) (r : Reason) (s : State), s.inReset = false → s.staging.state = .committing p →
    validate s.mgmtAddr s.staging.image = some (k, r) →
    exec .commitCompletion s = .next ((s.setMgmt p { s.mgmt p with
      result := ⟨0x44#8, .rejected (.entry k r), (s.mgmt p).result.serial⟩ }).setStaging
        ⟨s.staging.image, .owned p, .counting s.now, .rejected k r⟩)

/-! ## Management commands -/

/-- The commands that set one item of the issuing port: SELECT VIEW and CLEAR ERROR, carried out in NORMAL and in GUARDED alike, SET CHECK MODE and SET
HOLD LIMIT, with INVALID and no other effect for an argument out of range. -/
def Obligations.PortSettings : Prop :=
  ∀ (p : Port) (s : State), s.atRest p →
    (∀ (v a o : Byte),
      let selected := fun w : View => reported p 0x11#8 .done (s.setMgmt p { s.mgmt p with selection := ⟨w, o.toNat⟩ })
      (v = 0x00#8 → exec (.selectView p v a o) s = .next (selected .status)) ∧
      (∀ n : Fin 32, v = 0x01#8 → a.toNat = n.val → exec (.selectView p v a o) s = .next (selected (.activeEntry n))) ∧
      (∀ n : Fin 32, v = 0x02#8 → a.toNat = n.val → exec (.selectView p v a o) s = .next (selected (.stagedEntry n))) ∧
      (v = 0x03#8 → exec (.selectView p v a o) s = .next (selected .log)) ∧
      (v = 0x04#8 → exec (.selectView p v a o) s = .next (selected .firstError)) ∧
      (∀ d : Seg, v = 0x05#8 → a.toNat = d.val → exec (.selectView p v a o) s = .next (selected (.segment d))) ∧
      (6 ≤ v.toNat ∨ ((v = 0x01#8 ∨ v = 0x02#8) ∧ 32 ≤ a.toNat) ∨ (v = 0x05#8 ∧ 4 ≤ a.toNat) →
        exec (.selectView p v a o) s = .next (reported p 0x11#8 .invalid s))) ∧
    exec (.clearError p) s = .next (reported p 0x12#8 .done
      (s.setMgmt p { s.mgmt p with firstError := none, failures := 0, guard := .normal })) ∧
    ((s.mgmt p).guard = .normal →
      (∀ b, exec (.setCheckMode p b) s = .next
        (if b = 0x00#8 then reported p 0x13#8 .done (s.setMgmt p { s.mgmt p with mode := .stopping })
         else if b = 0x01#8 then reported p 0x13#8 .done (s.setMgmt p { s.mgmt p with mode := .persistent })
         else reported p 0x13#8 .invalid s)) ∧
      ∀ b, exec (.setHoldLimit p b) s = .next
        (if b.toNat ≤ 50 then reported p 0x14#8 .done (s.setHoldLimit p b.toNat) else reported p 0x14#8 .invalid s))

/-- CONFIGURE SEGMENT with its settings in range (segment 0..3, speed code 0..3, stall timeout 1..100 ms, enable 0 or 1): stored as pending in HELD and
RECOVERING; applied at once elsewhere, where enable on starts a recovery from DISABLED and FAULT, the RECOVERING segment's bus taken as idle (log 21), and enable off leaves DISABLED without a lease, every
waiter refused SEGMENT_DOWN with its record and its denied claim (order in the log: log 8). Out of range: INVALID and no other effect. -/
def Obligations.ConfigureSegment : Prop :=
  ∀ (p : Port) (seg speed stall enable : Byte) (s : State), s.ready p →
    (4 ≤ seg.toNat ∨ 4 ≤ speed.toNat ∨ stall.toNat = 0 ∨ 100 < stall.toNat ∨ 2 ≤ enable.toNat →
      exec (.configureSegment p seg speed stall enable) s = .next (reported p 0x21#8 .invalid s)) ∧
    ∀ (d : Seg) (v : Speed) (on : Bool), seg.toNat = d.val →
      (speed, v) ∈ [(0x00#8, Speed.k50), (0x01#8, .k100), (0x02#8, .k400), (0x03#8, .k1000)] →
      1 ≤ stall.toNat → stall.toNat ≤ 100 → (enable, on) ∈ [(0x00#8, false), (0x01#8, true)] →
      let c : SegConfig := ⟨v, stall.toNat, on⟩
      let g := s.seg d
      let answers := fun g' : Segment =>
        exec (.configureSegment p seg speed stall enable) s = .next (reported p 0x21#8 .done (s.setSeg d g'))
      (g.state = .held ∨ g.state = .recovering → answers { g with pendingConfig := some c }) ∧
      (g.state = .idle → c.enable = true → answers { g with config := c }) ∧
      (g.state = .disabled → c.enable = false → answers { g with config := c }) ∧
      (g.state = .disabled ∨ g.state = .fault → c.enable = true → answers { g with
        config := c, state := .recovering, holder := none, bus := .idle, transfer := none, openAfter := false }) ∧
      (g.state = .idle ∨ g.state = .fault → c.enable = false →
        (g.waiters = [] → answers { g with config := c, state := .disabled, lease := none }) ∧
        ∀ ws, s.waitingAre d ws →
          ∃ t, exec (.configureSegment p seg speed stall enable) s = .next (reported p 0x21#8 .done t) ∧
            LogTakes (s.downReports ws)
              ((s.refusedDown ws).setSeg d { g with config := c, state := .disabled, lease := none, waiters := [] }) t)

/-- RECOVER SEGMENT by the segment's state: RECOVERING with lease and waiters kept from IDLE and FAULT, its bus taken as idle (log 21), BUSY with no
effect elsewhere; INVALID for a segment number above 3. -/
def Obligations.RecoverSegment : Prop :=
  ∀ (p : Port) (b : Byte) (s : State), s.ready p →
    (4 ≤ b.toNat → exec (.recoverSegment p b) s = .next (reported p 0x22#8 .invalid s)) ∧
    ∀ d : Seg, b.toNat = d.val →
      ((s.seg d).state = .idle ∨ (s.seg d).state = .fault →
        exec (.recoverSegment p b) s = .next (reported p 0x22#8 .done (s.setSeg d { s.seg d with
          state := .recovering, holder := none, bus := .idle, transfer := none, openAfter := false }))) ∧
      ((s.seg d).state = .held ∨ (s.seg d).state = .recovering ∨ (s.seg d).state = .disabled →
        exec (.recoverSegment p b) s = .next (reported p 0x22#8 .busy s))

/-- LEASE SEGMENT creates or renews the issuing port's lease from this moment, BUSY on a DISABLED or FAULT segment, OWNED where the other port
holds it, INVALID out of range. RELEASE LEASE removes the port's own lease, and on an IDLE segment the waiter that it barred is granted, or refused at
step 4; OWNED where the other port holds it, DONE with no effect where there is none. -/
def Obligations.Leases : Prop :=
  ∀ (p : Port) (b : Byte) (w : Word16) (sda : Line) (s : State), s.ready p →
    (4 ≤ b.toNat ∨ w.toNat = 0 ∨ 2000 < w.toNat →
      exec (.leaseSegment p b w) s = .next (reported p 0x23#8 .invalid s)) ∧
    (4 ≤ b.toNat → exec (.releaseLease p b sda) s = .next (reported p 0x24#8 .invalid s)) ∧
    ∀ d : Seg, b.toNat = d.val →
      let down := (s.seg d).state = .disabled ∨ (s.seg d).state = .fault
      let others := ∃ l ∈ (s.seg d).lease, l.holder ≠ p
      (1 ≤ w.toNat → w.toNat ≤ 2000 →
        (down → exec (.leaseSegment p b w) s = .next (reported p 0x23#8 .busy s)) ∧
        (¬ down → others → exec (.leaseSegment p b w) s = .next (reported p 0x23#8 .owned s)) ∧
        (¬ down → ¬ others → exec (.leaseSegment p b w) s = .next (reported p 0x23#8 .done
          (s.setSeg d { s.seg d with lease := some ⟨p, s.now + w.toNat⟩ })))) ∧
      (others → exec (.releaseLease p b sda) s = .next (reported p 0x24#8 .owned s)) ∧
      ((s.seg d).lease = none → exec (.releaseLease p b sda) s = .next (reported p 0x24#8 .done s)) ∧
      (∀ l, (s.seg d).lease = some l → l.holder = p → (s.seg d).state ≠ .idle ∨ (s.seg d).waiters = [] →
        exec (.releaseLease p b sda) s = .next (reported p 0x24#8 .done (s.setSeg d { s.seg d with lease := none }))) ∧
      ∀ l x a, (s.seg d).lease = some l → l.holder = p → (s.seg d).state = .idle → (s.seg d).waiters = [x] →
        (s.ctx x.port).access = some a →
        let u := s.setSeg d { s.seg d with lease := none, waiters := [] }
        (passesStepFour a.copy a.dir (loadCursor s.cursors a.copy) →
          exec (.releaseLease p b sda) s = .next (reported p 0x24#8 .done (u.grantedTo x.port d sda a))) ∧
        (¬ passesStepFour a.copy a.dir (loadCursor s.cursors a.copy) →
          exec (.releaseLease p b sda) s = .next (reported p 0x24#8 .done (u.refusedAtFour x.port a)))

/-- ACKNOWLEDGE LOG removes the record with the named sequence and every older one, or answers RANGE; CLEAR COUNTERS zeroes one entry's counters or
all; SET ATTENTION MASK replaces the three enables. Out of range: INVALID. -/
def Obligations.LogCountersAndMask : Prop :=
  ∀ (p : Port) (s : State), s.ready p →
    (∀ (q : Word16) (older newer : List Violation) (v : Violation), s.log.records = older ++ v :: newer → v.sequence = q →
      (∀ x ∈ older, x.sequence ≠ q) →
      exec (.acknowledgeLog p q) s = .next (reported p 0x31#8 .done (s.setLog { s.log with records := newer }))) ∧
    (∀ q : Word16, (∀ x ∈ s.log.records, x.sequence ≠ q) →
      exec (.acknowledgeLog p q) s = .next (reported p 0x31#8 .range s)) ∧
    (∀ n : Fin 32, exec (.clearCounters p (BitVec.ofNat 8 n.val)) s = .next
      (reported p 0x32#8 .done (s.setCounters (s.counters.set n ⟨0, 0⟩)))) ∧
    exec (.clearCounters p 0xFF#8) s = .next (reported p 0x32#8 .done (s.setCounters (Vector.replicate 32 ⟨0, 0⟩))) ∧
    (∀ b : Byte, 32 ≤ b.toNat → b.toNat < 255 → exec (.clearCounters p b) s = .next (reported p 0x32#8 .invalid s)) ∧
    ∀ b : Byte, exec (.setAttentionMask p b) s = .next
      (if b.toNat < 8 then reported p 0x34#8 .done (s.setMask ⟨b.getLsbD 0, b.getLsbD 1, b.getLsbD 2⟩)
       else reported p 0x34#8 .invalid s)

/-- INVALIDATE CURSOR with 0xFF makes every cursor absent, keeps every key and width, and detaches every context that holds a target (log 13);
with an entry number it does so for the target of that entry of the active table, and nothing where the target holds no key. -/
def Obligations.InvalidateCursor : Prop :=
  ∀ (p : Port) (s : State), s.ready p →
    (∀ b : Byte, 32 ≤ b.toNat → b.toNat < 255 → exec (.invalidateCursor p b) s = .next (reported p 0x33#8 .invalid s)) ∧
    (let detach := fun c : Context => { c with access := c.access.map (fun a => { a with detached := a.detached || a.held.isSome }) }
     exec (.invalidateCursor p 0xFF#8) s = .next (reported p 0x33#8 .done
      (((s.setCursors (s.cursors.map (fun r => { r with cursor := none }))).setCtx .A (detach (s.ctx .A))).setCtx .B
        (detach (s.ctx .B))))) ∧
    ∀ n : Fin 32,
      let e := s.active[n]
      let detach := fun c : Context => { c with access := c.access.map (fun a =>
        { a with detached := a.detached || (a.held.isSome && a.copy.target = e.target) }) }
      (e.width = .zero ∨ (∀ r ∈ s.cursors, r.target ≠ e.target) →
        exec (.invalidateCursor p (BitVec.ofNat 8 n.val)) s = .next (reported p 0x33#8 .done s)) ∧
      (e.width ≠ .zero → (∃ r ∈ s.cursors, r.target = e.target) →
        exec (.invalidateCursor p (BitVec.ofNat 8 n.val)) s = .next (reported p 0x33#8 .done
          (((s.setCursors (s.cursors.map (fun r => if r.target = e.target then { r with cursor := none } else r))).setCtx .A
            (detach (s.ctx .A))).setCtx .B (detach (s.ctx .B)))))

/-- STAGE ENTRY writes the fields that the mask selects into one entry of the image and takes ownership of a FREE unit; COMMIT by the owner begins a
commit with result PENDING. The arguments are checked first: INVALID for an entry above 31, a mask that selects no field or has one of bits 15..11 set,
a selected width of 3, and a selected address above 0x7F. The other port gets OWNED, a commit in flight gives BUSY, and a COMMIT in FREE gives OWNED. -/
def Obligations.StageAndCommit : Prop :=
  ∀ (p : Port) (s : State), s.ready p →
    (∀ (b : Byte) (m : Word16) (i : EntryImage),
      let bad := m = 0#16 ∨ (∃ k, 11 ≤ k ∧ m.getLsbD k = true) ∨ (m.getLsbD 5 = true ∧ i.segWidth.toNat % 4 = 3) ∨
        (m.getLsbD 2 = true ∧ 0x7F < i.up.toNat) ∨ (m.getLsbD 4 = true ∧ 0x7F < i.down.toNat)
      (32 ≤ b.toNat ∨ bad → exec (.stageEntry p b m i) s = .next (reported p 0x41#8 .invalid s)) ∧
      ∀ n : Fin 32, b.toNat = n.val → ¬ bad →
        let old := s.staging.image[n]
        let entry : Entry :=
          { enabled := if m.getLsbD 0 then i.flags.getLsbD 7 else old.enabled
            ports := if m.getLsbD 1 then
              (if i.flags.getLsbD 6 then (if i.flags.getLsbD 5 then .both else .onlyA)
               else if i.flags.getLsbD 5 then .onlyB else .neither) else old.ports
            upAddr := if m.getLsbD 2 then BitVec.ofNat 7 i.up.toNat else old.upAddr
            segment := if m.getLsbD 3 then Fin.ofNat 4 (i.segWidth.toNat / 16) else old.segment
            downAddr := if m.getLsbD 4 then BitVec.ofNat 7 i.down.toNat else old.downAddr
            width := if m.getLsbD 5 then
              (if i.segWidth.toNat % 4 = 0 then .zero else if i.segWidth.toNat % 4 = 1 then .one else .two) else old.width
            readWin := if m.getLsbD 6 then ⟨i.flags.getLsbD 2, i.readLow, i.readHigh⟩ else old.readWin
            writeWin := if m.getLsbD 7 then ⟨i.flags.getLsbD 1, i.writeLow, i.writeHigh⟩ else old.writeWin
            limit := if m.getLsbD 8 then i.limit else old.limit
            blind := if m.getLsbD 9 then i.flags.getLsbD 4 else old.blind
            quiet := if m.getLsbD 10 then i.flags.getLsbD 3 else old.quiet }
        let image := s.staging.image.set n entry
        (s.staging.state = .free → exec (.stageEntry p b m i) s = .next
          (reported p 0x41#8 .done (s.setStaging ⟨image, .owned p, .counting s.now, s.staging.outcome⟩))) ∧
        (s.staging.state = .owned p → exec (.stageEntry p b m i) s = .next
          (reported p 0x41#8 .done (s.setStaging { s.staging with image := image }))) ∧
        (s.staging.state = .owned (other p) → exec (.stageEntry p b m i) s = .next (reported p 0x41#8 .owned s)) ∧
        (∀ q, s.staging.state = .committing q → exec (.stageEntry p b m i) s = .next (reported p 0x41#8 .busy s))) ∧
    (s.staging.state = .owned p → exec (.commit p) s = .next
      (reported p 0x44#8 .pending (s.setStaging { s.staging with state := .committing p, timer := .stopped }))) ∧
    (s.staging.state = .free ∨ s.staging.state = .owned (other p) →
      exec (.commit p) s = .next (reported p 0x44#8 .owned s)) ∧
    ∀ q, s.staging.state = .committing q → exec (.commit p) s = .next (reported p 0x44#8 .busy s)

/-- REVERT STAGING and DISCARD STAGING by the owner reload the image from the active table; REVERT keeps ownership and its good check restarts the
idle timer, DISCARD leaves the unit FREE with its timer stopped. From anyone else, OWNED or BUSY. -/
def Obligations.RevertAndDiscard : Prop :=
  ∀ (p : Port) (s : State), s.ready p →
    (s.staging.state = .owned p →
      exec (.revertStaging p) s = .next ((s.setMgmt p { s.mgmt p with
        result := ⟨0x42#8, .done, (s.mgmt p).result.serial + 1⟩ }).setStaging
          ⟨s.active, .owned p, .counting s.now, s.staging.outcome⟩) ∧
      exec (.discardStaging p) s = .next ((s.setMgmt p { s.mgmt p with
        result := ⟨0x43#8, .done, (s.mgmt p).result.serial + 1⟩ }).setStaging ⟨s.active, .free, .stopped, s.staging.outcome⟩)) ∧
    (s.staging.state = .free ∨ s.staging.state = .owned (other p) →
      exec (.revertStaging p) s = .next (reported p 0x42#8 .owned s) ∧
      exec (.discardStaging p) s = .next (reported p 0x43#8 .owned s)) ∧
    ∀ q, s.staging.state = .committing q →
      exec (.revertStaging p) s = .next (reported p 0x42#8 .busy s) ∧
      exec (.discardStaging p) s = .next (reported p 0x43#8 .busy s)

/-- SOFT RESET completes on every port at rest and NORMAL. It clears log, counters, cursors, leases, waiters, requests, staging and check failures, keeps
policy, mask, configurations, limits and modes, and aborts the other port's traffic access without a record or a claim: its context and front end by
its state, and the segment that it holds or retains closed after any transfer in flight; the model shows that segment with no holder and its bus closing
from the SOFT RESET on, while the transfer (log 9) or a bus-clear inside OPENING (log 24) still runs. An address byte outside the policy that waits for
a release has no access to abort and goes on waiting (log 23). A read that delivers no byte, whether one is being fetched or the ninth bit of its address
is still to be clocked, has 0xFF delivered (log 26). -/
def Obligations.SoftReset : Prop :=
  ∀ (p q : Port) (s : State), s.ready p → q = other p →
    let c := s.ctx q
    let aborted := fun st : CtxState =>
      (⟨st, c.access.map (fun a => { a with detached := true, held := none }), none⟩ : Context)
    let traffic := c.state ∈ [CtxState.waiting, .opening, .writeIndex, .writeData, .readData, .readEnd] ∨
      (c.state = .matching ∧ c.access ≠ none)
    let cleared := fun g : Segment => { g with
      waiters := [], requests := [], lease := none
      resume := g.resume.filter (fun r => r.outcome ∈ [.unanswered, .frame, .snapshot]) }
    let has := fun d : Seg => (∃ a ∈ c.access, a.held = some d) ∨ (c.access = none ∧ c.retained = some d)
    ∃ t, exec (.softReset p) s = .next t ∧
      (c.state ∈ [CtxState.idle, .unaddressed, .filler, .refusing, .mgmtWrite, .mgmtRead] ∨ (c.state = .matching ∧ c.access = none) →
        t.ctx q = c ∧ t.fe q = s.fe q) ∧
      (c.state ∈ [CtxState.waiting, .opening] ∨ (c.state = .matching ∧ c.access ≠ none) → t.ctx q = aborted .refusing ∧ t.fe q = (s.fe q).answering .nak) ∧
      (c.state ∈ [CtxState.writeIndex, .writeData] → c.retained = none →
        t.ctx q = aborted .refusing ∧ t.fe q = if (s.fe q).hold then (s.fe q).answering .nak else (s.fe q).silent) ∧
      (c.state = .readData → t.ctx q = aborted .filler ∧
        t.fe q = if delivering q s then s.fe q else (s.fe q).sending 0xFF#8) ∧
      (c.state = .readEnd → c.retained = none → t.ctx q = aborted .refusing ∧ t.fe q = s.fe q) ∧
      (c.state ∈ [CtxState.writeIndex, .writeData, .readEnd] → c.retained ≠ none → t.ctx q = .idle ∧ t.fe q = s.fe q) ∧
      (∀ d, traffic → has d → t.seg d =
        cleared ((s.seg d).closed (if c.state = .readData ∧ delivering q s = true then some .nak else none))) ∧
      (∀ d, ¬ (traffic ∧ has d) → t.seg d = cleared (s.seg d)) ∧
      t.mgmt p = { s.mgmt p with
        firstError := none, failures := 0, guard := .normal, selection := ⟨.status, 0⟩,
        result := ⟨0x5A#8, .done, (s.mgmt p).result.serial + 1⟩ } ∧
      t.mgmt q = { s.mgmt q with
        firstError := none, failures := 0, guard := .normal, selection := ⟨.status, 0⟩
        reading := if c.state = .mgmtRead then (s.mgmt q).reading.map (fun r => { r with stored := false }) else (s.mgmt q).reading
        result := if s.staging.state = .committing q then ⟨0x44#8, .rejected .abandoned, (s.mgmt q).result.serial⟩
          else (s.mgmt q).result } ∧
      (s.staging.state = .free → t.staging = s.staging) ∧
      (∀ x, s.staging.state = .owned x → t.staging = ⟨s.active, .free, .stopped, s.staging.outcome⟩) ∧
      (∀ x, s.staging.state = .committing x → t.staging = ⟨s.active, .free, .stopped, .abandoned⟩) ∧
      t.log = ⟨[], s.log.next, 0⟩ ∧ (∀ n : Fin 32, t.counters[n] = ⟨0, 0⟩) ∧
      t.cursors = s.cursors.map (fun r => { r with cursor := none }) ∧
      t.active = s.active ∧ t.generation = s.generation ∧ t.mask = s.mask ∧ t.holdLimits = s.holdLimits ∧ t.straps = s.straps ∧
      t.ctx p = s.ctx p ∧ t.fe p = s.fe p ∧ t.inReset = false ∧ t.now = s.now ∧ t.freeCount = s.freeCount ∧ t.pending = s.pending

/-- A GUARDED port refuses every command but SELECT VIEW and CLEAR ERROR (which `PortSettings` states for it): the good frame ends GUARDED with no effect
but its result record and its notice to the staging unit. -/
def Obligations.GuardedPortsRefuse : Prop :=
  ∀ (p : Port) (c : Command) (sda : Line) (s : State), s.atRest p → (s.mgmt p).guard = .guarded →
    (∀ v a o, c ≠ .selectView v a o) → c ≠ .clearError →
    exec (rowOf p c sda) s = .next (reported p (commandCode c) .guarded s)

/-! ## What every step keeps -/

/-- The state right after reset satisfies every invariant below. -/
def Obligations.ResetSatisfiesTheInvariants : Prop :=
  State.reset.log.wf ∧ State.reset.countsWf ∧ State.reset.checkWf ∧ State.reset.framesWf ∧ State.reset.activeValid ∧ State.reset.stagingWf ∧
    State.reset.cursorsWf ∧ State.reset.indexesWf ∧ State.reset.configsWf ∧ State.reset.trafficWf

/-- Every step keeps the log in form (at most 16 records with consecutive sequences that end just before the next one, and a dropped count of at most
65535), and in range both counters of every entry (at most 65535), the failure count of each port, the data byte count of each access and the byte
offset of each record (at most 255), and the hold limit of each port and of each wait (at most 50). -/
def Obligations.StepKeepsLogAndCounts : Prop :=
  ∀ s t : State, step s = .next t → (s.log.wf → t.log.wf) ∧ (s.countsWf → t.countsWf)

/-- Every step keeps the management units in form: the first-error record is present exactly when the failure count is nonzero, a GUARDED port has
its record, and a frame in assembly is as its bytes have left it, its running check value among them. -/
def Obligations.StepKeepsManagementUnits : Prop :=
  ∀ s t : State, step s = .next t → (s.checkWf → t.checkWf) ∧ (s.framesWf → t.framesWf)

/-- Every step keeps the active table valid and the staging unit in form: in FREE the image is a copy of the active table. Valid is what validation finds:
it names entry k and reason r exactly where k is the lowest enabled entry that breaks a condition and r is the first, in the order of the checks, that k
breaks; it finds nothing exactly where no entry breaks any. So in a valid table at most one enabled entry serves a port at an address, none uses a reserved
address or the management address, the enabled entries of one target have one width, and present windows lie in their width's range, low not above
high. -/
def Obligations.StepKeepsThePolicyValid : Prop :=
  (∀ s t : State, s.activeValid → s.stagingWf → step s = .next t → t.activeValid ∧ t.stagingWf) ∧
  ∀ (mgmt : Addr7) (t : Table),
    (∀ k r, validate mgmt t = some (k, r) ↔
      breaks mgmt t k r ∧ (∀ r', r'.place < r.place → ¬ breaks mgmt t k r') ∧ ∀ n < k, ∀ r', ¬ breaks mgmt t n r') ∧
    (validate mgmt t = none ↔ ∀ n r, ¬ breaks mgmt t n r) ∧
    (validate mgmt t = none →
      (∀ (n k : Fin 32) (p : Port), t[n].enabled = true → t[k].enabled = true → t[n].includes p → t[k].includes p →
        t[n].upAddr = t[k].upAddr → n = k) ∧
      ∀ n : Fin 32, t[n].enabled = true →
        ¬ isReserved t[n].upAddr ∧ ¬ isReserved t[n].downAddr ∧ t[n].upAddr ≠ mgmt ∧
        (∀ k : Fin 32, t[k].enabled = true → t[k].target = t[n].target → t[k].width = t[n].width) ∧
        ∀ w, t[n].hasWindow w → t[n].width ≠ .zero →
          w.low.toNat ≤ w.high.toNat ∧ (t[n].width = .one → w.high.toNat ≤ 255))

/-- Every step keeps the cursor map in canonical form, with exactly the keys that the active table names, and keeps every present cursor of width 1, in
the map and in an access, at most 255. (The table's validity rules out two widths for one target.) -/
def Obligations.StepKeepsTheCursorKeys : Prop :=
  ∀ s t : State, s.activeValid → s.cursorsWf → step s = .next t → t.cursorsWf ∧ (s.indexesWf → t.indexesWf)

/-- Every step keeps pending configurations to HELD and RECOVERING segments, and leases off DISABLED and FAULT ones. -/
def Obligations.StepKeepsConfigurations : Prop :=
  ∀ s t : State, s.configsWf → step s = .next t → t.configsWf

/-- Every step keeps ports and segments in agreement: each segment has at most one holder and each context at most one segment, waiters and requests
are the contexts that wait and request, the clock is held exactly where a decision is due, the timeout timer is stopped during a hold and spent only on a
FREE bus, and in READ_DATA without a hold a byte is being delivered or none has been fetched yet (log 16). The model's readings: a context whose request
is kept rests in MATCH (logs 18, 24), and an address byte that waits for a release is that of a context in MATCH, with an access or without one
(log 23). -/
def Obligations.StepKeepsHoldersConsistent : Prop :=
  ∀ s t : State, s.trafficWf → step s = .next t → t.trafficWf

/-! ## What the policy guarantees -/

/-- A data byte goes onto a downstream bus only as a WRITE_DATA_BYTE of an access whose copy has a write window, at an index inside it for width 1 or
2, and within the length limit. -/
def Obligations.NoDataByteOutsideThePolicy : Prop :=
  ∀ (c : Instr) (s t : State) (d : Seg) (b : Byte), exec c s = .next t → (t.seg d).transfer = some (.dataByte b) →
    (s.seg d).transfer ≠ some (.dataByte b) →
    ∃ p a, c = .writeDataByte p b ∧ (s.ctx p).state = .writeData ∧ (s.ctx p).access = some a ∧ a.held = some d ∧
      a.copy.writeWin.present = true ∧
      (a.copy.width ≠ .zero → ∃ i ∈ a.cursor, a.copy.writeWin.low.toNat ≤ i.toNat ∧ i.toNat ≤ a.copy.writeWin.high.toNat) ∧
      (a.copy.limit ≠ 0#8 → a.count + 1 ≤ a.copy.limit.toNat)

/-- An entry's accepted counter rises only at the target's ACK of the translated address, for an access of that entry that is not detached. -/
def Obligations.AcceptedOnlyAfterTheTargetsAck : Prop :=
  ∀ (c : Instr) (s t : State) (n : Fin 32), exec c s = .next t → s.counters[n].accepted < t.counters[n].accepted →
    ∃ d p a ninth, c = .targetAddressAnswer d .ack ninth ∧ (∃ again x dir, (s.seg d).transfer = some (.start again x dir)) ∧ (s.seg d).holder = some p ∧
      (s.ctx p).access = some a ∧ a.entryNo = n ∧ a.detached = false

/-- The active table and the generation change only at a valid commit completion, which installs the staging image, or at a reset release. -/
def Obligations.PolicyChangesOnlyByCommit : Prop :=
  ∀ (c : Instr) (s t : State), exec c s = .next t → (t.active ≠ s.active ∨ t.generation ≠ s.generation) →
    (c = .commitCompletion ∧ (∃ p, s.staging.state = .committing p) ∧ validate s.mgmtAddr s.staging.image = none ∧
      t.active = s.staging.image ∧ t.generation = s.generation + 1) ∨
    (∃ w x y z, (c = .powerOn w x y z ∨ c = .resetNRelease w x y z) ∧ t.active = clearedTable ∧ t.generation = 0)

/-- ATTN_N is low exactly while RESET_N is not low and an enabled source is active: LOG while a record is held or one was dropped, CHECK while a
port has a first-error record, FAULT while a segment is in FAULT. On the lines of a segment, between the transfers of a HELD segment whose bus is open,
the part holds SCL low with SDA released, and the stall timer does not run; it drives nothing on a DISABLED, IDLE or FAULT segment, before the first
START after a grant, and while RESET_N is low; a transfer, a close and a recovery are driven bit by bit (not shown: log 16). -/
def Obligations.AttentionLine : Prop :=
  (∀ s : State, attnLow s = true ↔ s.inReset = false ∧
    ((s.mask.log = true ∧ (s.log.records ≠ [] ∨ s.log.dropped ≠ 0)) ∨
      (s.mask.check = true ∧ ∃ p, (s.mgmt p).firstError ≠ none) ∨
      (s.mask.fault = true ∧ ∃ d, (s.seg d).state = .fault))) ∧
  ∀ (s : State) (d : Seg),
    (s.inReset = true → segLines s d = .released) ∧
    (s.inReset = false →
      ((s.seg d).state = .disabled ∨ (s.seg d).state = .idle ∨ (s.seg d).state = .fault → segLines s d = .released) ∧
      ((s.seg d).state = .recovering → segLines s d = .clocking) ∧
      ((s.seg d).state = .held → (s.seg d).transfer ≠ none ∨ (s.seg d).bus = .closing → segLines s d = .clocking) ∧
      ((s.seg d).state = .held → (s.seg d).transfer = none → (s.seg d).bus = .idle → segLines s d = .released) ∧
      ((s.seg d).state = .held → (s.seg d).transfer = none → (s.seg d).bus = .opened → segLines s d = .sclHeld ∧
        ((s.seg d).holder ≠ none → exec (.stallTimeout d) s = .fault .notInProgress)))
end

