-- ==== Sys2Proof/Laws/State.lean ====
section
/-! SUPPORT. One lemma for each field under each update of State: what the update changes reads as written, and everything else as before. -/

namespace Sys2Proof.Machine

/-! ## Ports -/

@[simp] theorem other_other (p : Port) : other (other p) = p := by cases p <;> rfl
@[simp] theorem other_ne (p : Port) : other p ≠ p := by cases p <;> decide
theorem eq_other_of_ne (p q : Port) (h : q ≠ p) : q = other p := by cases p <;> cases q <;> first | rfl | exact absurd rfl h

@[simp] theorem PerPort.get_set_self {α : Type} (x : PerPort α) (p : Port) (v : α) : (x.set p v).get p = v := by
  cases p <;> rfl
theorem PerPort.get_set_ne {α : Type} (x : PerPort α) (p q : Port) (v : α) (h : q ≠ p) : (x.set p v).get q = x.get q := by
  cases p <;> cases q <;> first | rfl | exact absurd rfl h

/-! ## Updates -/

/-! ### setFe -/

@[simp] theorem State.setFe_inReset (s : State) (p : Port) (f : FrontEnd) : (s.setFe p f).inReset = s.inReset := rfl
@[simp] theorem State.setFe_straps (s : State) (p : Port) (f : FrontEnd) : (s.setFe p f).straps = s.straps := rfl
@[simp] theorem State.setFe_active (s : State) (p : Port) (f : FrontEnd) : (s.setFe p f).active = s.active := rfl
@[simp] theorem State.setFe_generation (s : State) (p : Port) (f : FrontEnd) : (s.setFe p f).generation = s.generation := rfl
@[simp] theorem State.setFe_counters (s : State) (p : Port) (f : FrontEnd) : (s.setFe p f).counters = s.counters := rfl
@[simp] theorem State.setFe_staging (s : State) (p : Port) (f : FrontEnd) : (s.setFe p f).staging = s.staging := rfl
@[simp] theorem State.setFe_cursors (s : State) (p : Port) (f : FrontEnd) : (s.setFe p f).cursors = s.cursors := rfl
@[simp] theorem State.setFe_log (s : State) (p : Port) (f : FrontEnd) : (s.setFe p f).log = s.log := rfl
@[simp] theorem State.setFe_mask (s : State) (p : Port) (f : FrontEnd) : (s.setFe p f).mask = s.mask := rfl
@[simp] theorem State.setFe_now (s : State) (p : Port) (f : FrontEnd) : (s.setFe p f).now = s.now := rfl
@[simp] theorem State.setFe_freeCount (s : State) (p : Port) (f : FrontEnd) : (s.setFe p f).freeCount = s.freeCount := rfl
@[simp] theorem State.setFe_pending (s : State) (p : Port) (f : FrontEnd) : (s.setFe p f).pending = s.pending := rfl
@[simp] theorem State.setFe_mgmtAddr (s : State) (p : Port) (f : FrontEnd) : (s.setFe p f).mgmtAddr = s.mgmtAddr := rfl
@[simp] theorem State.setFe_ctx (s : State) (p : Port) (f : FrontEnd) (q : Port) : (s.setFe p f).ctx q = s.ctx q := rfl
@[simp] theorem State.setFe_mgmt (s : State) (p : Port) (f : FrontEnd) (q : Port) : (s.setFe p f).mgmt q = s.mgmt q := rfl
@[simp] theorem State.setFe_holdLimit (s : State) (p : Port) (f : FrontEnd) (q : Port) : (s.setFe p f).holdLimit q = s.holdLimit q := rfl
@[simp] theorem State.setFe_seg (s : State) (p : Port) (f : FrontEnd) (e : Seg) : (s.setFe p f).seg e = s.seg e := rfl
@[simp] theorem State.setFe_fe (s : State) (p : Port) (f : FrontEnd) : (s.setFe p f).fe p = f := by cases p <;> rfl
theorem State.setFe_fe_ne (s : State) (p : Port) (f : FrontEnd) (q : Port) (h : q ≠ p) : (s.setFe p f).fe q = s.fe q := by
  cases p <;> cases q <;> first | rfl | exact absurd rfl h
@[simp] theorem State.setFe_fe_other (s : State) (p : Port) (f : FrontEnd) : (s.setFe p f).fe (other p) = s.fe (other p) := by cases p <;> rfl

/-! ### setCtx -/

@[simp] theorem State.setCtx_inReset (s : State) (p : Port) (c : Context) : (s.setCtx p c).inReset = s.inReset := rfl
@[simp] theorem State.setCtx_straps (s : State) (p : Port) (c : Context) : (s.setCtx p c).straps = s.straps := rfl
@[simp] theorem State.setCtx_active (s : State) (p : Port) (c : Context) : (s.setCtx p c).active = s.active := rfl
@[simp] theorem State.setCtx_generation (s : State) (p : Port) (c : Context) : (s.setCtx p c).generation = s.generation := rfl
@[simp] theorem State.setCtx_counters (s : State) (p : Port) (c : Context) : (s.setCtx p c).counters = s.counters := rfl
@[simp] theorem State.setCtx_staging (s : State) (p : Port) (c : Context) : (s.setCtx p c).staging = s.staging := rfl
@[simp] theorem State.setCtx_cursors (s : State) (p : Port) (c : Context) : (s.setCtx p c).cursors = s.cursors := rfl
@[simp] theorem State.setCtx_log (s : State) (p : Port) (c : Context) : (s.setCtx p c).log = s.log := rfl
@[simp] theorem State.setCtx_mask (s : State) (p : Port) (c : Context) : (s.setCtx p c).mask = s.mask := rfl
@[simp] theorem State.setCtx_now (s : State) (p : Port) (c : Context) : (s.setCtx p c).now = s.now := rfl
@[simp] theorem State.setCtx_freeCount (s : State) (p : Port) (c : Context) : (s.setCtx p c).freeCount = s.freeCount := rfl
@[simp] theorem State.setCtx_pending (s : State) (p : Port) (c : Context) : (s.setCtx p c).pending = s.pending := rfl
@[simp] theorem State.setCtx_mgmtAddr (s : State) (p : Port) (c : Context) : (s.setCtx p c).mgmtAddr = s.mgmtAddr := rfl
@[simp] theorem State.setCtx_fe (s : State) (p : Port) (c : Context) (q : Port) : (s.setCtx p c).fe q = s.fe q := rfl
@[simp] theorem State.setCtx_mgmt (s : State) (p : Port) (c : Context) (q : Port) : (s.setCtx p c).mgmt q = s.mgmt q := rfl
@[simp] theorem State.setCtx_holdLimit (s : State) (p : Port) (c : Context) (q : Port) : (s.setCtx p c).holdLimit q = s.holdLimit q := rfl
@[simp] theorem State.setCtx_seg (s : State) (p : Port) (c : Context) (e : Seg) : (s.setCtx p c).seg e = s.seg e := rfl
@[simp] theorem State.setCtx_ctx (s : State) (p : Port) (c : Context) : (s.setCtx p c).ctx p = c := by cases p <;> rfl
theorem State.setCtx_ctx_ne (s : State) (p : Port) (c : Context) (q : Port) (h : q ≠ p) : (s.setCtx p c).ctx q = s.ctx q := by
  cases p <;> cases q <;> first | rfl | exact absurd rfl h
@[simp] theorem State.setCtx_ctx_other (s : State) (p : Port) (c : Context) : (s.setCtx p c).ctx (other p) = s.ctx (other p) := by cases p <;> rfl

/-! ### setMgmt -/

@[simp] theorem State.setMgmt_inReset (s : State) (p : Port) (m : MgmtUnit) : (s.setMgmt p m).inReset = s.inReset := rfl
@[simp] theorem State.setMgmt_straps (s : State) (p : Port) (m : MgmtUnit) : (s.setMgmt p m).straps = s.straps := rfl
@[simp] theorem State.setMgmt_active (s : State) (p : Port) (m : MgmtUnit) : (s.setMgmt p m).active = s.active := rfl
@[simp] theorem State.setMgmt_generation (s : State) (p : Port) (m : MgmtUnit) : (s.setMgmt p m).generation = s.generation := rfl
@[simp] theorem State.setMgmt_counters (s : State) (p : Port) (m : MgmtUnit) : (s.setMgmt p m).counters = s.counters := rfl
@[simp] theorem State.setMgmt_staging (s : State) (p : Port) (m : MgmtUnit) : (s.setMgmt p m).staging = s.staging := rfl
@[simp] theorem State.setMgmt_cursors (s : State) (p : Port) (m : MgmtUnit) : (s.setMgmt p m).cursors = s.cursors := rfl
@[simp] theorem State.setMgmt_log (s : State) (p : Port) (m : MgmtUnit) : (s.setMgmt p m).log = s.log := rfl
@[simp] theorem State.setMgmt_mask (s : State) (p : Port) (m : MgmtUnit) : (s.setMgmt p m).mask = s.mask := rfl
@[simp] theorem State.setMgmt_now (s : State) (p : Port) (m : MgmtUnit) : (s.setMgmt p m).now = s.now := rfl
@[simp] theorem State.setMgmt_freeCount (s : State) (p : Port) (m : MgmtUnit) : (s.setMgmt p m).freeCount = s.freeCount := rfl
@[simp] theorem State.setMgmt_pending (s : State) (p : Port) (m : MgmtUnit) : (s.setMgmt p m).pending = s.pending := rfl
@[simp] theorem State.setMgmt_mgmtAddr (s : State) (p : Port) (m : MgmtUnit) : (s.setMgmt p m).mgmtAddr = s.mgmtAddr := rfl
@[simp] theorem State.setMgmt_fe (s : State) (p : Port) (m : MgmtUnit) (q : Port) : (s.setMgmt p m).fe q = s.fe q := rfl
@[simp] theorem State.setMgmt_ctx (s : State) (p : Port) (m : MgmtUnit) (q : Port) : (s.setMgmt p m).ctx q = s.ctx q := rfl
@[simp] theorem State.setMgmt_holdLimit (s : State) (p : Port) (m : MgmtUnit) (q : Port) : (s.setMgmt p m).holdLimit q = s.holdLimit q := rfl
@[simp] theorem State.setMgmt_seg (s : State) (p : Port) (m : MgmtUnit) (e : Seg) : (s.setMgmt p m).seg e = s.seg e := rfl
@[simp] theorem State.setMgmt_mgmt (s : State) (p : Port) (m : MgmtUnit) : (s.setMgmt p m).mgmt p = m := by cases p <;> rfl
theorem State.setMgmt_mgmt_ne (s : State) (p : Port) (m : MgmtUnit) (q : Port) (h : q ≠ p) : (s.setMgmt p m).mgmt q = s.mgmt q := by
  cases p <;> cases q <;> first | rfl | exact absurd rfl h
@[simp] theorem State.setMgmt_mgmt_other (s : State) (p : Port) (m : MgmtUnit) : (s.setMgmt p m).mgmt (other p) = s.mgmt (other p) := by cases p <;> rfl

/-! ### setHoldLimit -/

@[simp] theorem State.setHoldLimit_inReset (s : State) (p : Port) (n : Nat) : (s.setHoldLimit p n).inReset = s.inReset := rfl
@[simp] theorem State.setHoldLimit_straps (s : State) (p : Port) (n : Nat) : (s.setHoldLimit p n).straps = s.straps := rfl
@[simp] theorem State.setHoldLimit_active (s : State) (p : Port) (n : Nat) : (s.setHoldLimit p n).active = s.active := rfl
@[simp] theorem State.setHoldLimit_generation (s : State) (p : Port) (n : Nat) : (s.setHoldLimit p n).generation = s.generation := rfl
@[simp] theorem State.setHoldLimit_counters (s : State) (p : Port) (n : Nat) : (s.setHoldLimit p n).counters = s.counters := rfl
@[simp] theorem State.setHoldLimit_staging (s : State) (p : Port) (n : Nat) : (s.setHoldLimit p n).staging = s.staging := rfl
@[simp] theorem State.setHoldLimit_cursors (s : State) (p : Port) (n : Nat) : (s.setHoldLimit p n).cursors = s.cursors := rfl
@[simp] theorem State.setHoldLimit_log (s : State) (p : Port) (n : Nat) : (s.setHoldLimit p n).log = s.log := rfl
@[simp] theorem State.setHoldLimit_mask (s : State) (p : Port) (n : Nat) : (s.setHoldLimit p n).mask = s.mask := rfl
@[simp] theorem State.setHoldLimit_now (s : State) (p : Port) (n : Nat) : (s.setHoldLimit p n).now = s.now := rfl
@[simp] theorem State.setHoldLimit_freeCount (s : State) (p : Port) (n : Nat) : (s.setHoldLimit p n).freeCount = s.freeCount := rfl
@[simp] theorem State.setHoldLimit_pending (s : State) (p : Port) (n : Nat) : (s.setHoldLimit p n).pending = s.pending := rfl
@[simp] theorem State.setHoldLimit_mgmtAddr (s : State) (p : Port) (n : Nat) : (s.setHoldLimit p n).mgmtAddr = s.mgmtAddr := rfl
@[simp] theorem State.setHoldLimit_fe (s : State) (p : Port) (n : Nat) (q : Port) : (s.setHoldLimit p n).fe q = s.fe q := rfl
@[simp] theorem State.setHoldLimit_ctx (s : State) (p : Port) (n : Nat) (q : Port) : (s.setHoldLimit p n).ctx q = s.ctx q := rfl
@[simp] theorem State.setHoldLimit_mgmt (s : State) (p : Port) (n : Nat) (q : Port) : (s.setHoldLimit p n).mgmt q = s.mgmt q := rfl
@[simp] theorem State.setHoldLimit_seg (s : State) (p : Port) (n : Nat) (e : Seg) : (s.setHoldLimit p n).seg e = s.seg e := rfl
@[simp] theorem State.setHoldLimit_holdLimit (s : State) (p : Port) (n : Nat) : (s.setHoldLimit p n).holdLimit p = n := by cases p <;> rfl
theorem State.setHoldLimit_holdLimit_ne (s : State) (p : Port) (n : Nat) (q : Port) (h : q ≠ p) : (s.setHoldLimit p n).holdLimit q = s.holdLimit q := by
  cases p <;> cases q <;> first | rfl | exact absurd rfl h
@[simp] theorem State.setHoldLimit_holdLimit_other (s : State) (p : Port) (n : Nat) : (s.setHoldLimit p n).holdLimit (other p) = s.holdLimit (other p) := by cases p <;> rfl

/-! ### setSeg -/

@[simp] theorem State.setSeg_inReset (s : State) (d : Seg) (g : Segment) : (s.setSeg d g).inReset = s.inReset := rfl
@[simp] theorem State.setSeg_straps (s : State) (d : Seg) (g : Segment) : (s.setSeg d g).straps = s.straps := rfl
@[simp] theorem State.setSeg_active (s : State) (d : Seg) (g : Segment) : (s.setSeg d g).active = s.active := rfl
@[simp] theorem State.setSeg_generation (s : State) (d : Seg) (g : Segment) : (s.setSeg d g).generation = s.generation := rfl
@[simp] theorem State.setSeg_counters (s : State) (d : Seg) (g : Segment) : (s.setSeg d g).counters = s.counters := rfl
@[simp] theorem State.setSeg_staging (s : State) (d : Seg) (g : Segment) : (s.setSeg d g).staging = s.staging := rfl
@[simp] theorem State.setSeg_cursors (s : State) (d : Seg) (g : Segment) : (s.setSeg d g).cursors = s.cursors := rfl
@[simp] theorem State.setSeg_log (s : State) (d : Seg) (g : Segment) : (s.setSeg d g).log = s.log := rfl
@[simp] theorem State.setSeg_mask (s : State) (d : Seg) (g : Segment) : (s.setSeg d g).mask = s.mask := rfl
@[simp] theorem State.setSeg_now (s : State) (d : Seg) (g : Segment) : (s.setSeg d g).now = s.now := rfl
@[simp] theorem State.setSeg_freeCount (s : State) (d : Seg) (g : Segment) : (s.setSeg d g).freeCount = s.freeCount := rfl
@[simp] theorem State.setSeg_pending (s : State) (d : Seg) (g : Segment) : (s.setSeg d g).pending = s.pending := rfl
@[simp] theorem State.setSeg_mgmtAddr (s : State) (d : Seg) (g : Segment) : (s.setSeg d g).mgmtAddr = s.mgmtAddr := rfl
@[simp] theorem State.setSeg_fe (s : State) (d : Seg) (g : Segment) (q : Port) : (s.setSeg d g).fe q = s.fe q := rfl
@[simp] theorem State.setSeg_ctx (s : State) (d : Seg) (g : Segment) (q : Port) : (s.setSeg d g).ctx q = s.ctx q := rfl
@[simp] theorem State.setSeg_mgmt (s : State) (d : Seg) (g : Segment) (q : Port) : (s.setSeg d g).mgmt q = s.mgmt q := rfl
@[simp] theorem State.setSeg_holdLimit (s : State) (d : Seg) (g : Segment) (q : Port) : (s.setSeg d g).holdLimit q = s.holdLimit q := rfl
@[simp] theorem State.setSeg_seg (s : State) (d : Seg) (g : Segment) : (s.setSeg d g).seg d = g := by
  simp [State.seg, State.setSeg]
theorem State.setSeg_seg_ne (s : State) (d : Seg) (g : Segment) (e : Seg) (h : e ≠ d) : (s.setSeg d g).seg e = s.seg e := by
  have hv : (d : Nat) ≠ (e : Nat) := fun h' => h (Fin.ext h'.symm)
  simp [State.seg, State.setSeg, Vector.getElem_set_ne, hv]

/-! ### setLog -/

@[simp] theorem State.setLog_inReset (s : State) (l : Log) : (s.setLog l).inReset = s.inReset := rfl
@[simp] theorem State.setLog_straps (s : State) (l : Log) : (s.setLog l).straps = s.straps := rfl
@[simp] theorem State.setLog_active (s : State) (l : Log) : (s.setLog l).active = s.active := rfl
@[simp] theorem State.setLog_generation (s : State) (l : Log) : (s.setLog l).generation = s.generation := rfl
@[simp] theorem State.setLog_counters (s : State) (l : Log) : (s.setLog l).counters = s.counters := rfl
@[simp] theorem State.setLog_staging (s : State) (l : Log) : (s.setLog l).staging = s.staging := rfl
@[simp] theorem State.setLog_cursors (s : State) (l : Log) : (s.setLog l).cursors = s.cursors := rfl
@[simp] theorem State.setLog_mask (s : State) (l : Log) : (s.setLog l).mask = s.mask := rfl
@[simp] theorem State.setLog_now (s : State) (l : Log) : (s.setLog l).now = s.now := rfl
@[simp] theorem State.setLog_freeCount (s : State) (l : Log) : (s.setLog l).freeCount = s.freeCount := rfl
@[simp] theorem State.setLog_pending (s : State) (l : Log) : (s.setLog l).pending = s.pending := rfl
@[simp] theorem State.setLog_mgmtAddr (s : State) (l : Log) : (s.setLog l).mgmtAddr = s.mgmtAddr := rfl
@[simp] theorem State.setLog_fe (s : State) (l : Log) (q : Port) : (s.setLog l).fe q = s.fe q := rfl
@[simp] theorem State.setLog_ctx (s : State) (l : Log) (q : Port) : (s.setLog l).ctx q = s.ctx q := rfl
@[simp] theorem State.setLog_mgmt (s : State) (l : Log) (q : Port) : (s.setLog l).mgmt q = s.mgmt q := rfl
@[simp] theorem State.setLog_holdLimit (s : State) (l : Log) (q : Port) : (s.setLog l).holdLimit q = s.holdLimit q := rfl
@[simp] theorem State.setLog_seg (s : State) (l : Log) (e : Seg) : (s.setLog l).seg e = s.seg e := rfl
@[simp] theorem State.setLog_log (s : State) (l : Log) : (s.setLog l).log = l := rfl

/-! ### setCursors -/

@[simp] theorem State.setCursors_inReset (s : State) (m : List CursorRec) : (s.setCursors m).inReset = s.inReset := rfl
@[simp] theorem State.setCursors_straps (s : State) (m : List CursorRec) : (s.setCursors m).straps = s.straps := rfl
@[simp] theorem State.setCursors_active (s : State) (m : List CursorRec) : (s.setCursors m).active = s.active := rfl
@[simp] theorem State.setCursors_generation (s : State) (m : List CursorRec) : (s.setCursors m).generation = s.generation := rfl
@[simp] theorem State.setCursors_counters (s : State) (m : List CursorRec) : (s.setCursors m).counters = s.counters := rfl
@[simp] theorem State.setCursors_staging (s : State) (m : List CursorRec) : (s.setCursors m).staging = s.staging := rfl
@[simp] theorem State.setCursors_log (s : State) (m : List CursorRec) : (s.setCursors m).log = s.log := rfl
@[simp] theorem State.setCursors_mask (s : State) (m : List CursorRec) : (s.setCursors m).mask = s.mask := rfl
@[simp] theorem State.setCursors_now (s : State) (m : List CursorRec) : (s.setCursors m).now = s.now := rfl
@[simp] theorem State.setCursors_freeCount (s : State) (m : List CursorRec) : (s.setCursors m).freeCount = s.freeCount := rfl
@[simp] theorem State.setCursors_pending (s : State) (m : List CursorRec) : (s.setCursors m).pending = s.pending := rfl
@[simp] theorem State.setCursors_mgmtAddr (s : State) (m : List CursorRec) : (s.setCursors m).mgmtAddr = s.mgmtAddr := rfl
@[simp] theorem State.setCursors_fe (s : State) (m : List CursorRec) (q : Port) : (s.setCursors m).fe q = s.fe q := rfl
@[simp] theorem State.setCursors_ctx (s : State) (m : List CursorRec) (q : Port) : (s.setCursors m).ctx q = s.ctx q := rfl
@[simp] theorem State.setCursors_mgmt (s : State) (m : List CursorRec) (q : Port) : (s.setCursors m).mgmt q = s.mgmt q := rfl
@[simp] theorem State.setCursors_holdLimit (s : State) (m : List CursorRec) (q : Port) : (s.setCursors m).holdLimit q = s.holdLimit q := rfl
@[simp] theorem State.setCursors_seg (s : State) (m : List CursorRec) (e : Seg) : (s.setCursors m).seg e = s.seg e := rfl
@[simp] theorem State.setCursors_cursors (s : State) (m : List CursorRec) : (s.setCursors m).cursors = m := rfl

/-! ### setCounters -/

@[simp] theorem State.setCounters_inReset (s : State) (c : Vector Counters 32) : (s.setCounters c).inReset = s.inReset := rfl
@[simp] theorem State.setCounters_straps (s : State) (c : Vector Counters 32) : (s.setCounters c).straps = s.straps := rfl
@[simp] theorem State.setCounters_active (s : State) (c : Vector Counters 32) : (s.setCounters c).active = s.active := rfl
@[simp] theorem State.setCounters_generation (s : State) (c : Vector Counters 32) : (s.setCounters c).generation = s.generation := rfl
@[simp] theorem State.setCounters_staging (s : State) (c : Vector Counters 32) : (s.setCounters c).staging = s.staging := rfl
@[simp] theorem State.setCounters_cursors (s : State) (c : Vector Counters 32) : (s.setCounters c).cursors = s.cursors := rfl
@[simp] theorem State.setCounters_log (s : State) (c : Vector Counters 32) : (s.setCounters c).log = s.log := rfl
@[simp] theorem State.setCounters_mask (s : State) (c : Vector Counters 32) : (s.setCounters c).mask = s.mask := rfl
@[simp] theorem State.setCounters_now (s : State) (c : Vector Counters 32) : (s.setCounters c).now = s.now := rfl
@[simp] theorem State.setCounters_freeCount (s : State) (c : Vector Counters 32) : (s.setCounters c).freeCount = s.freeCount := rfl
@[simp] theorem State.setCounters_pending (s : State) (c : Vector Counters 32) : (s.setCounters c).pending = s.pending := rfl
@[simp] theorem State.setCounters_mgmtAddr (s : State) (c : Vector Counters 32) : (s.setCounters c).mgmtAddr = s.mgmtAddr := rfl
@[simp] theorem State.setCounters_fe (s : State) (c : Vector Counters 32) (q : Port) : (s.setCounters c).fe q = s.fe q := rfl
@[simp] theorem State.setCounters_ctx (s : State) (c : Vector Counters 32) (q : Port) : (s.setCounters c).ctx q = s.ctx q := rfl
@[simp] theorem State.setCounters_mgmt (s : State) (c : Vector Counters 32) (q : Port) : (s.setCounters c).mgmt q = s.mgmt q := rfl
@[simp] theorem State.setCounters_holdLimit (s : State) (c : Vector Counters 32) (q : Port) : (s.setCounters c).holdLimit q = s.holdLimit q := rfl
@[simp] theorem State.setCounters_seg (s : State) (c : Vector Counters 32) (e : Seg) : (s.setCounters c).seg e = s.seg e := rfl
@[simp] theorem State.setCounters_counters (s : State) (c : Vector Counters 32) : (s.setCounters c).counters = c := rfl

/-! ### setStaging -/

@[simp] theorem State.setStaging_inReset (s : State) (g : Staging) : (s.setStaging g).inReset = s.inReset := rfl
@[simp] theorem State.setStaging_straps (s : State) (g : Staging) : (s.setStaging g).straps = s.straps := rfl
@[simp] theorem State.setStaging_active (s : State) (g : Staging) : (s.setStaging g).active = s.active := rfl
@[simp] theorem State.setStaging_generation (s : State) (g : Staging) : (s.setStaging g).generation = s.generation := rfl
@[simp] theorem State.setStaging_counters (s : State) (g : Staging) : (s.setStaging g).counters = s.counters := rfl
@[simp] theorem State.setStaging_cursors (s : State) (g : Staging) : (s.setStaging g).cursors = s.cursors := rfl
@[simp] theorem State.setStaging_log (s : State) (g : Staging) : (s.setStaging g).log = s.log := rfl
@[simp] theorem State.setStaging_mask (s : State) (g : Staging) : (s.setStaging g).mask = s.mask := rfl
@[simp] theorem State.setStaging_now (s : State) (g : Staging) : (s.setStaging g).now = s.now := rfl
@[simp] theorem State.setStaging_freeCount (s : State) (g : Staging) : (s.setStaging g).freeCount = s.freeCount := rfl
@[simp] theorem State.setStaging_pending (s : State) (g : Staging) : (s.setStaging g).pending = s.pending := rfl
@[simp] theorem State.setStaging_mgmtAddr (s : State) (g : Staging) : (s.setStaging g).mgmtAddr = s.mgmtAddr := rfl
@[simp] theorem State.setStaging_fe (s : State) (g : Staging) (q : Port) : (s.setStaging g).fe q = s.fe q := rfl
@[simp] theorem State.setStaging_ctx (s : State) (g : Staging) (q : Port) : (s.setStaging g).ctx q = s.ctx q := rfl
@[simp] theorem State.setStaging_mgmt (s : State) (g : Staging) (q : Port) : (s.setStaging g).mgmt q = s.mgmt q := rfl
@[simp] theorem State.setStaging_holdLimit (s : State) (g : Staging) (q : Port) : (s.setStaging g).holdLimit q = s.holdLimit q := rfl
@[simp] theorem State.setStaging_seg (s : State) (g : Staging) (e : Seg) : (s.setStaging g).seg e = s.seg e := rfl
@[simp] theorem State.setStaging_staging (s : State) (g : Staging) : (s.setStaging g).staging = g := rfl

/-! ### setMask -/

@[simp] theorem State.setMask_inReset (s : State) (m : AttnMask) : (s.setMask m).inReset = s.inReset := rfl
@[simp] theorem State.setMask_straps (s : State) (m : AttnMask) : (s.setMask m).straps = s.straps := rfl
@[simp] theorem State.setMask_active (s : State) (m : AttnMask) : (s.setMask m).active = s.active := rfl
@[simp] theorem State.setMask_generation (s : State) (m : AttnMask) : (s.setMask m).generation = s.generation := rfl
@[simp] theorem State.setMask_counters (s : State) (m : AttnMask) : (s.setMask m).counters = s.counters := rfl
@[simp] theorem State.setMask_staging (s : State) (m : AttnMask) : (s.setMask m).staging = s.staging := rfl
@[simp] theorem State.setMask_cursors (s : State) (m : AttnMask) : (s.setMask m).cursors = s.cursors := rfl
@[simp] theorem State.setMask_log (s : State) (m : AttnMask) : (s.setMask m).log = s.log := rfl
@[simp] theorem State.setMask_now (s : State) (m : AttnMask) : (s.setMask m).now = s.now := rfl
@[simp] theorem State.setMask_freeCount (s : State) (m : AttnMask) : (s.setMask m).freeCount = s.freeCount := rfl
@[simp] theorem State.setMask_pending (s : State) (m : AttnMask) : (s.setMask m).pending = s.pending := rfl
@[simp] theorem State.setMask_mgmtAddr (s : State) (m : AttnMask) : (s.setMask m).mgmtAddr = s.mgmtAddr := rfl
@[simp] theorem State.setMask_fe (s : State) (m : AttnMask) (q : Port) : (s.setMask m).fe q = s.fe q := rfl
@[simp] theorem State.setMask_ctx (s : State) (m : AttnMask) (q : Port) : (s.setMask m).ctx q = s.ctx q := rfl
@[simp] theorem State.setMask_mgmt (s : State) (m : AttnMask) (q : Port) : (s.setMask m).mgmt q = s.mgmt q := rfl
@[simp] theorem State.setMask_holdLimit (s : State) (m : AttnMask) (q : Port) : (s.setMask m).holdLimit q = s.holdLimit q := rfl
@[simp] theorem State.setMask_seg (s : State) (m : AttnMask) (e : Seg) : (s.setMask m).seg e = s.seg e := rfl
@[simp] theorem State.setMask_mask (s : State) (m : AttnMask) : (s.setMask m).mask = m := rfl

/-! ### drawFree -/

@[simp] theorem State.drawFree_inReset (s : State) : s.drawFree.inReset = s.inReset := rfl
@[simp] theorem State.drawFree_straps (s : State) : s.drawFree.straps = s.straps := rfl
@[simp] theorem State.drawFree_active (s : State) : s.drawFree.active = s.active := rfl
@[simp] theorem State.drawFree_generation (s : State) : s.drawFree.generation = s.generation := rfl
@[simp] theorem State.drawFree_counters (s : State) : s.drawFree.counters = s.counters := rfl
@[simp] theorem State.drawFree_staging (s : State) : s.drawFree.staging = s.staging := rfl
@[simp] theorem State.drawFree_cursors (s : State) : s.drawFree.cursors = s.cursors := rfl
@[simp] theorem State.drawFree_log (s : State) : s.drawFree.log = s.log := rfl
@[simp] theorem State.drawFree_mask (s : State) : s.drawFree.mask = s.mask := rfl
@[simp] theorem State.drawFree_now (s : State) : s.drawFree.now = s.now := rfl
@[simp] theorem State.drawFree_pending (s : State) : s.drawFree.pending = s.pending := rfl
@[simp] theorem State.drawFree_mgmtAddr (s : State) : s.drawFree.mgmtAddr = s.mgmtAddr := rfl
@[simp] theorem State.drawFree_fe (s : State) (q : Port) : s.drawFree.fe q = s.fe q := rfl
@[simp] theorem State.drawFree_ctx (s : State) (q : Port) : s.drawFree.ctx q = s.ctx q := rfl
@[simp] theorem State.drawFree_mgmt (s : State) (q : Port) : s.drawFree.mgmt q = s.mgmt q := rfl
@[simp] theorem State.drawFree_holdLimit (s : State) (q : Port) : s.drawFree.holdLimit q = s.holdLimit q := rfl
@[simp] theorem State.drawFree_seg (s : State) (e : Seg) : s.drawFree.seg e = s.seg e := rfl
@[simp] theorem State.drawFree_freeCount (s : State) : s.drawFree.freeCount = s.freeCount + 1 := rfl

/-! ### setPending -/

@[simp] theorem State.setPending_inReset (s : State) (q : List Instr) : (s.setPending q).inReset = s.inReset := rfl
@[simp] theorem State.setPending_straps (s : State) (q : List Instr) : (s.setPending q).straps = s.straps := rfl
@[simp] theorem State.setPending_active (s : State) (q : List Instr) : (s.setPending q).active = s.active := rfl
@[simp] theorem State.setPending_generation (s : State) (q : List Instr) : (s.setPending q).generation = s.generation := rfl
@[simp] theorem State.setPending_counters (s : State) (q : List Instr) : (s.setPending q).counters = s.counters := rfl
@[simp] theorem State.setPending_staging (s : State) (q : List Instr) : (s.setPending q).staging = s.staging := rfl
@[simp] theorem State.setPending_cursors (s : State) (q : List Instr) : (s.setPending q).cursors = s.cursors := rfl
@[simp] theorem State.setPending_log (s : State) (q : List Instr) : (s.setPending q).log = s.log := rfl
@[simp] theorem State.setPending_mask (s : State) (q : List Instr) : (s.setPending q).mask = s.mask := rfl
@[simp] theorem State.setPending_now (s : State) (q : List Instr) : (s.setPending q).now = s.now := rfl
@[simp] theorem State.setPending_freeCount (s : State) (q : List Instr) : (s.setPending q).freeCount = s.freeCount := rfl
@[simp] theorem State.setPending_mgmtAddr (s : State) (q : List Instr) : (s.setPending q).mgmtAddr = s.mgmtAddr := rfl
@[simp] theorem State.setPending_fe (s : State) (q : List Instr) (r : Port) : (s.setPending q).fe r = s.fe r := rfl
@[simp] theorem State.setPending_ctx (s : State) (q : List Instr) (r : Port) : (s.setPending q).ctx r = s.ctx r := rfl
@[simp] theorem State.setPending_mgmt (s : State) (q : List Instr) (r : Port) : (s.setPending q).mgmt r = s.mgmt r := rfl
@[simp] theorem State.setPending_holdLimit (s : State) (q : List Instr) (r : Port) : (s.setPending q).holdLimit r = s.holdLimit r := rfl
@[simp] theorem State.setPending_seg (s : State) (q : List Instr) (e : Seg) : (s.setPending q).seg e = s.seg e := rfl
@[simp] theorem State.setPending_pending (s : State) (q : List Instr) : (s.setPending q).pending = q := rfl

/-! ## Updates of one piece: the last one stands -/

@[simp] theorem State.setPending_setPending (s : State) (q : List Instr) (q' : List Instr) : (s.setPending q).setPending q' = s.setPending q' := rfl
@[simp] theorem State.setCursors_setCursors (s : State) (m : List CursorRec) (m' : List CursorRec) : (s.setCursors m).setCursors m' = s.setCursors m' := rfl
@[simp] theorem State.setLog_setLog (s : State) (l : Log) (l' : Log) : (s.setLog l).setLog l' = s.setLog l' := rfl
@[simp] theorem State.setCounters_setCounters (s : State) (c : Vector Counters 32) (c' : Vector Counters 32) : (s.setCounters c).setCounters c' = s.setCounters c' := rfl
@[simp] theorem State.setMask_setMask (s : State) (k : AttnMask) (k' : AttnMask) : (s.setMask k).setMask k' = s.setMask k' := rfl
@[simp] theorem State.setHoldLimit_setHoldLimit (s : State) (h : Port) (n : Nat) (n' : Nat) : (s.setHoldLimit h n).setHoldLimit h n' = s.setHoldLimit h n' := by
  cases h <;> rfl
@[simp] theorem State.setFe_setFe (s : State) (p : Port) (f : FrontEnd) (f' : FrontEnd) : (s.setFe p f).setFe p f' = s.setFe p f' := by
  cases p <;> rfl
@[simp] theorem State.setCtx_setCtx (s : State) (r : Port) (x : Context) (x' : Context) : (s.setCtx r x).setCtx r x' = s.setCtx r x' := by
  cases r <;> rfl
@[simp] theorem State.setMgmt_setMgmt (s : State) (t : Port) (u : MgmtUnit) (u' : MgmtUnit) : (s.setMgmt t u).setMgmt t u' = s.setMgmt t u' := by
  cases t <;> rfl
@[simp] theorem State.setStaging_setStaging (s : State) (g : Staging) (g' : Staging) : (s.setStaging g).setStaging g' = s.setStaging g' := rfl
@[simp] theorem State.setSeg_setSeg (s : State) (d : Seg) (e : Segment) (e' : Segment) : (s.setSeg d e).setSeg d e' = s.setSeg d e' := by
  simp [State.setSeg]

@[simp] theorem State.setFe_self (s : State) (p : Port) : s.setFe p (s.fe p) = s := by cases p <;> rfl
@[simp] theorem State.setCtx_self (s : State) (p : Port) : s.setCtx p (s.ctx p) = s := by cases p <;> rfl
@[simp] theorem State.setMgmt_self (s : State) (p : Port) : s.setMgmt p (s.mgmt p) = s := by cases p <;> rfl
@[simp] theorem State.setSeg_self (s : State) (d : Seg) : s.setSeg d (s.seg d) = s := by simp [State.setSeg, State.seg]
@[simp] theorem State.setLog_self (s : State) : s.setLog s.log = s := rfl
@[simp] theorem State.setCounters_self (s : State) : s.setCounters s.counters = s := rfl
@[simp] theorem State.setCursors_self (s : State) : s.setCursors s.cursors = s := rfl
@[simp] theorem State.setStaging_self (s : State) : s.setStaging s.staging = s := rfl

/-! ## Updates of different pieces: one order -/

@[simp] theorem State.setPending_drawFree_swap (s : State) (q : List Instr) : (s.setPending q).drawFree = s.drawFree.setPending q := rfl
@[simp] theorem State.setCursors_drawFree_swap (s : State) (m : List CursorRec) : (s.setCursors m).drawFree = s.drawFree.setCursors m := rfl
@[simp] theorem State.setLog_drawFree_swap (s : State) (l : Log) : (s.setLog l).drawFree = s.drawFree.setLog l := rfl
@[simp] theorem State.setCounters_drawFree_swap (s : State) (c : Vector Counters 32) : (s.setCounters c).drawFree = s.drawFree.setCounters c := rfl
@[simp] theorem State.setMask_drawFree_swap (s : State) (k : AttnMask) : (s.setMask k).drawFree = s.drawFree.setMask k := rfl
@[simp] theorem State.setHoldLimit_drawFree_swap (s : State) (h : Port) (n : Nat) : (s.setHoldLimit h n).drawFree = s.drawFree.setHoldLimit h n := rfl
@[simp] theorem State.setFe_drawFree_swap (s : State) (p : Port) (f : FrontEnd) : (s.setFe p f).drawFree = s.drawFree.setFe p f := rfl
@[simp] theorem State.setCtx_drawFree_swap (s : State) (r : Port) (x : Context) : (s.setCtx r x).drawFree = s.drawFree.setCtx r x := rfl
@[simp] theorem State.setMgmt_drawFree_swap (s : State) (t : Port) (u : MgmtUnit) : (s.setMgmt t u).drawFree = s.drawFree.setMgmt t u := rfl
@[simp] theorem State.setStaging_drawFree_swap (s : State) (g : Staging) : (s.setStaging g).drawFree = s.drawFree.setStaging g := rfl
@[simp] theorem State.setSeg_drawFree_swap (s : State) (d : Seg) (e : Segment) : (s.setSeg d e).drawFree = s.drawFree.setSeg d e := rfl
@[simp] theorem State.setCursors_setPending_swap (s : State) (q : List Instr) (m : List CursorRec) : (s.setCursors m).setPending q = (s.setPending q).setCursors m := rfl
@[simp] theorem State.setLog_setPending_swap (s : State) (q : List Instr) (l : Log) : (s.setLog l).setPending q = (s.setPending q).setLog l := rfl
@[simp] theorem State.setCounters_setPending_swap (s : State) (q : List Instr) (c : Vector Counters 32) : (s.setCounters c).setPending q = (s.setPending q).setCounters c := rfl
@[simp] theorem State.setMask_setPending_swap (s : State) (q : List Instr) (k : AttnMask) : (s.setMask k).setPending q = (s.setPending q).setMask k := rfl
@[simp] theorem State.setHoldLimit_setPending_swap (s : State) (q : List Instr) (h : Port) (n : Nat) : (s.setHoldLimit h n).setPending q = (s.setPending q).setHoldLimit h n := rfl
@[simp] theorem State.setFe_setPending_swap (s : State) (q : List Instr) (p : Port) (f : FrontEnd) : (s.setFe p f).setPending q = (s.setPending q).setFe p f := rfl
@[simp] theorem State.setCtx_setPending_swap (s : State) (q : List Instr) (r : Port) (x : Context) : (s.setCtx r x).setPending q = (s.setPending q).setCtx r x := rfl
@[simp] theorem State.setMgmt_setPending_swap (s : State) (q : List Instr) (t : Port) (u : MgmtUnit) : (s.setMgmt t u).setPending q = (s.setPending q).setMgmt t u := rfl
@[simp] theorem State.setStaging_setPending_swap (s : State) (q : List Instr) (g : Staging) : (s.setStaging g).setPending q = (s.setPending q).setStaging g := rfl
@[simp] theorem State.setSeg_setPending_swap (s : State) (q : List Instr) (d : Seg) (e : Segment) : (s.setSeg d e).setPending q = (s.setPending q).setSeg d e := rfl
@[simp] theorem State.setLog_setCursors_swap (s : State) (m : List CursorRec) (l : Log) : (s.setLog l).setCursors m = (s.setCursors m).setLog l := rfl
@[simp] theorem State.setCounters_setCursors_swap (s : State) (m : List CursorRec) (c : Vector Counters 32) : (s.setCounters c).setCursors m = (s.setCursors m).setCounters c := rfl
@[simp] theorem State.setMask_setCursors_swap (s : State) (m : List CursorRec) (k : AttnMask) : (s.setMask k).setCursors m = (s.setCursors m).setMask k := rfl
@[simp] theorem State.setHoldLimit_setCursors_swap (s : State) (m : List CursorRec) (h : Port) (n : Nat) : (s.setHoldLimit h n).setCursors m = (s.setCursors m).setHoldLimit h n := rfl
@[simp] theorem State.setFe_setCursors_swap (s : State) (m : List CursorRec) (p : Port) (f : FrontEnd) : (s.setFe p f).setCursors m = (s.setCursors m).setFe p f := rfl
@[simp] theorem State.setCtx_setCursors_swap (s : State) (m : List CursorRec) (r : Port) (x : Context) : (s.setCtx r x).setCursors m = (s.setCursors m).setCtx r x := rfl
@[simp] theorem State.setMgmt_setCursors_swap (s : State) (m : List CursorRec) (t : Port) (u : MgmtUnit) : (s.setMgmt t u).setCursors m = (s.setCursors m).setMgmt t u := rfl
@[simp] theorem State.setStaging_setCursors_swap (s : State) (m : List CursorRec) (g : Staging) : (s.setStaging g).setCursors m = (s.setCursors m).setStaging g := rfl
@[simp] theorem State.setSeg_setCursors_swap (s : State) (m : List CursorRec) (d : Seg) (e : Segment) : (s.setSeg d e).setCursors m = (s.setCursors m).setSeg d e := rfl
@[simp] theorem State.setCounters_setLog_swap (s : State) (l : Log) (c : Vector Counters 32) : (s.setCounters c).setLog l = (s.setLog l).setCounters c := rfl
@[simp] theorem State.setMask_setLog_swap (s : State) (l : Log) (k : AttnMask) : (s.setMask k).setLog l = (s.setLog l).setMask k := rfl
@[simp] theorem State.setHoldLimit_setLog_swap (s : State) (l : Log) (h : Port) (n : Nat) : (s.setHoldLimit h n).setLog l = (s.setLog l).setHoldLimit h n := rfl
@[simp] theorem State.setFe_setLog_swap (s : State) (l : Log) (p : Port) (f : FrontEnd) : (s.setFe p f).setLog l = (s.setLog l).setFe p f := rfl
@[simp] theorem State.setCtx_setLog_swap (s : State) (l : Log) (r : Port) (x : Context) : (s.setCtx r x).setLog l = (s.setLog l).setCtx r x := rfl
@[simp] theorem State.setMgmt_setLog_swap (s : State) (l : Log) (t : Port) (u : MgmtUnit) : (s.setMgmt t u).setLog l = (s.setLog l).setMgmt t u := rfl
@[simp] theorem State.setStaging_setLog_swap (s : State) (l : Log) (g : Staging) : (s.setStaging g).setLog l = (s.setLog l).setStaging g := rfl
@[simp] theorem State.setSeg_setLog_swap (s : State) (l : Log) (d : Seg) (e : Segment) : (s.setSeg d e).setLog l = (s.setLog l).setSeg d e := rfl
@[simp] theorem State.setMask_setCounters_swap (s : State) (c : Vector Counters 32) (k : AttnMask) : (s.setMask k).setCounters c = (s.setCounters c).setMask k := rfl
@[simp] theorem State.setHoldLimit_setCounters_swap (s : State) (c : Vector Counters 32) (h : Port) (n : Nat) : (s.setHoldLimit h n).setCounters c = (s.setCounters c).setHoldLimit h n := rfl
@[simp] theorem State.setFe_setCounters_swap (s : State) (c : Vector Counters 32) (p : Port) (f : FrontEnd) : (s.setFe p f).setCounters c = (s.setCounters c).setFe p f := rfl
@[simp] theorem State.setCtx_setCounters_swap (s : State) (c : Vector Counters 32) (r : Port) (x : Context) : (s.setCtx r x).setCounters c = (s.setCounters c).setCtx r x := rfl
@[simp] theorem State.setMgmt_setCounters_swap (s : State) (c : Vector Counters 32) (t : Port) (u : MgmtUnit) : (s.setMgmt t u).setCounters c = (s.setCounters c).setMgmt t u := rfl
@[simp] theorem State.setStaging_setCounters_swap (s : State) (c : Vector Counters 32) (g : Staging) : (s.setStaging g).setCounters c = (s.setCounters c).setStaging g := rfl
@[simp] theorem State.setSeg_setCounters_swap (s : State) (c : Vector Counters 32) (d : Seg) (e : Segment) : (s.setSeg d e).setCounters c = (s.setCounters c).setSeg d e := rfl
@[simp] theorem State.setHoldLimit_setMask_swap (s : State) (k : AttnMask) (h : Port) (n : Nat) : (s.setHoldLimit h n).setMask k = (s.setMask k).setHoldLimit h n := rfl
@[simp] theorem State.setFe_setMask_swap (s : State) (k : AttnMask) (p : Port) (f : FrontEnd) : (s.setFe p f).setMask k = (s.setMask k).setFe p f := rfl
@[simp] theorem State.setCtx_setMask_swap (s : State) (k : AttnMask) (r : Port) (x : Context) : (s.setCtx r x).setMask k = (s.setMask k).setCtx r x := rfl
@[simp] theorem State.setMgmt_setMask_swap (s : State) (k : AttnMask) (t : Port) (u : MgmtUnit) : (s.setMgmt t u).setMask k = (s.setMask k).setMgmt t u := rfl
@[simp] theorem State.setStaging_setMask_swap (s : State) (k : AttnMask) (g : Staging) : (s.setStaging g).setMask k = (s.setMask k).setStaging g := rfl
@[simp] theorem State.setSeg_setMask_swap (s : State) (k : AttnMask) (d : Seg) (e : Segment) : (s.setSeg d e).setMask k = (s.setMask k).setSeg d e := rfl
@[simp] theorem State.setFe_setHoldLimit_swap (s : State) (h : Port) (n : Nat) (p : Port) (f : FrontEnd) : (s.setFe p f).setHoldLimit h n = (s.setHoldLimit h n).setFe p f := rfl
@[simp] theorem State.setCtx_setHoldLimit_swap (s : State) (h : Port) (n : Nat) (r : Port) (x : Context) : (s.setCtx r x).setHoldLimit h n = (s.setHoldLimit h n).setCtx r x := rfl
@[simp] theorem State.setMgmt_setHoldLimit_swap (s : State) (h : Port) (n : Nat) (t : Port) (u : MgmtUnit) : (s.setMgmt t u).setHoldLimit h n = (s.setHoldLimit h n).setMgmt t u := rfl
@[simp] theorem State.setStaging_setHoldLimit_swap (s : State) (h : Port) (n : Nat) (g : Staging) : (s.setStaging g).setHoldLimit h n = (s.setHoldLimit h n).setStaging g := rfl
@[simp] theorem State.setSeg_setHoldLimit_swap (s : State) (h : Port) (n : Nat) (d : Seg) (e : Segment) : (s.setSeg d e).setHoldLimit h n = (s.setHoldLimit h n).setSeg d e := rfl
@[simp] theorem State.setCtx_setFe_swap (s : State) (p : Port) (f : FrontEnd) (r : Port) (x : Context) : (s.setCtx r x).setFe p f = (s.setFe p f).setCtx r x := rfl
@[simp] theorem State.setMgmt_setFe_swap (s : State) (p : Port) (f : FrontEnd) (t : Port) (u : MgmtUnit) : (s.setMgmt t u).setFe p f = (s.setFe p f).setMgmt t u := rfl
@[simp] theorem State.setStaging_setFe_swap (s : State) (p : Port) (f : FrontEnd) (g : Staging) : (s.setStaging g).setFe p f = (s.setFe p f).setStaging g := rfl
@[simp] theorem State.setSeg_setFe_swap (s : State) (p : Port) (f : FrontEnd) (d : Seg) (e : Segment) : (s.setSeg d e).setFe p f = (s.setFe p f).setSeg d e := rfl
@[simp] theorem State.setMgmt_setCtx_swap (s : State) (r : Port) (x : Context) (t : Port) (u : MgmtUnit) : (s.setMgmt t u).setCtx r x = (s.setCtx r x).setMgmt t u := rfl
@[simp] theorem State.setStaging_setCtx_swap (s : State) (r : Port) (x : Context) (g : Staging) : (s.setStaging g).setCtx r x = (s.setCtx r x).setStaging g := rfl
@[simp] theorem State.setSeg_setCtx_swap (s : State) (r : Port) (x : Context) (d : Seg) (e : Segment) : (s.setSeg d e).setCtx r x = (s.setCtx r x).setSeg d e := rfl
@[simp] theorem State.setStaging_setMgmt_swap (s : State) (t : Port) (u : MgmtUnit) (g : Staging) : (s.setStaging g).setMgmt t u = (s.setMgmt t u).setStaging g := rfl
@[simp] theorem State.setSeg_setMgmt_swap (s : State) (t : Port) (u : MgmtUnit) (d : Seg) (e : Segment) : (s.setSeg d e).setMgmt t u = (s.setMgmt t u).setSeg d e := rfl
@[simp] theorem State.setSeg_setStaging_swap (s : State) (g : Staging) (d : Seg) (e : Segment) : (s.setSeg d e).setStaging g = (s.setStaging g).setSeg d e := rfl

/-- Writing back what a segment holds changes nothing. -/
@[simp] theorem State.setSeg_seg_self (s : State) (d : Seg) : s.setSeg d (s.seg d) = s := by
  unfold State.setSeg State.seg; simp

end Sys2Proof.Machine
end

