-- ==== Sys2Proof/Laws/Ops.lean ====
section
/-! SUPPORT. One lemma for each shared operation, for provers to cite in place of unfolding it: what it leaves unchanged (`Keeps`,
`KeepsOther`, `KeepsSegs`), and what it leaves behind at its own port. -/

namespace Sys2Proof.Machine

/-! ## What no traffic operation changes -/

theorem Keeps.refl (s : State) : Keeps s s := ⟨rfl, rfl, rfl, rfl, rfl, rfl, rfl, rfl, rfl, rfl⟩

theorem Keeps.trans {s t u : State} (h : Keeps s t) (k : Keeps t u) : Keeps s u :=
  ⟨k.1.trans h.1, k.2.trans h.2, k.3.trans h.3, k.4.trans h.4, k.5.trans h.5, k.6.trans h.6, k.7.trans h.7, k.8.trans h.8,
    k.9.trans h.9, k.10.trans h.10⟩

theorem Keeps.mgmt {s t : State} (h : Keeps s t) (p : Port) : t.mgmt p = s.mgmt p := by
  simp [State.mgmt, h.units]

theorem Keeps.holdLimit {s t : State} (h : Keeps s t) (p : Port) : t.holdLimit p = s.holdLimit p := by
  simp [State.holdLimit, h.holdLimits]

theorem Keeps.mgmtAddr {s t : State} (h : Keeps s t) : t.mgmtAddr = s.mgmtAddr := by
  simp [State.mgmtAddr, h.straps]

theorem Keeps.setFe (s : State) (p : Port) (f : FrontEnd) : Keeps s (s.setFe p f) :=
  ⟨rfl, rfl, rfl, rfl, rfl, rfl, rfl, rfl, rfl, rfl⟩

theorem Keeps.setCtx (s : State) (p : Port) (c : Context) : Keeps s (s.setCtx p c) :=
  ⟨rfl, rfl, rfl, rfl, rfl, rfl, rfl, rfl, rfl, rfl⟩

theorem Keeps.setSeg (s : State) (d : Seg) (g : Segment) : Keeps s (s.setSeg d g) :=
  ⟨rfl, rfl, rfl, rfl, rfl, rfl, rfl, rfl, rfl, rfl⟩

theorem Keeps.setLog (s : State) (l : Log) : Keeps s (s.setLog l) :=
  ⟨rfl, rfl, rfl, rfl, rfl, rfl, rfl, rfl, rfl, rfl⟩

theorem Keeps.setCounters (s : State) (c : Vector Counters 32) : Keeps s (s.setCounters c) :=
  ⟨rfl, rfl, rfl, rfl, rfl, rfl, rfl, rfl, rfl, rfl⟩

theorem Keeps.setCursors (s : State) (m : List CursorRec) : Keeps s (s.setCursors m) :=
  ⟨rfl, rfl, rfl, rfl, rfl, rfl, rfl, rfl, rfl, rfl⟩

theorem Keeps.drawFree (s : State) : Keeps s s.drawFree :=
  ⟨rfl, rfl, rfl, rfl, rfl, rfl, rfl, rfl, rfl, rfl⟩

theorem Keeps.foldl {β : Type} (f : State → β → State) (h : ∀ s x, Keeps s (f s x)) (l : List β) (s : State) :
    Keeps s (l.foldl f s) := by
  induction l generalizing s with
  | nil => exact .refl s
  | cons x rest ih => exact (h s x).trans (ih _)

/-! ## What an operation of one port, or of one segment, leaves alone -/

theorem KeepsOther.refl (p : Port) (s : State) : KeepsOther p s s := ⟨rfl, rfl⟩

theorem KeepsOther.trans {p : Port} {s t u : State} (h : KeepsOther p s t) (k : KeepsOther p t u) : KeepsOther p s u :=
  ⟨k.1.trans h.1, k.2.trans h.2⟩

theorem KeepsSegs.refl (d : Seg) (s : State) : KeepsSegs d s s := fun _ _ => rfl

theorem KeepsSegs.trans {d : Seg} {s t u : State} (h : KeepsSegs d s t) (k : KeepsSegs d t u) : KeepsSegs d s u :=
  fun e he => (k e he).trans (h e he)

theorem KeepsSegs.setSeg (s : State) (d : Seg) (g : Segment) : KeepsSegs d s (s.setSeg d g) :=
  fun e he => State.setSeg_seg_ne s d g e he

/-! ## Front end -/

theorem sclSeen_spec (p : Port) (s : State) : sclSeen p s = s.setFe p { s.fe p with timer := .stopped } := rfl

theorem answer_spec (p : Port) (a : Ack) (s : State) :
    ∃ f, answer p a s = s.setFe p f ∧ f.hold = false ∧ f.byte = .none ∧ (f.drive = .low ↔ a = .ack) ∧
      f.bus = (s.fe p).bus ∧ f.role = (s.fe p).role ∧ f.timer = .counting :=
  ⟨_, rfl, rfl, rfl, by cases a <;> simp, rfl, rfl, rfl⟩

theorem holdClock_spec (p : Port) (s : State) :
    ∃ f, holdClock p s = s.setFe p f ∧ f.hold = true ∧ f.byte = .none ∧ f.drive = .released ∧
      f.bus = (s.fe p).bus ∧ f.role = (s.fe p).role ∧ f.timer = .stopped :=
  ⟨_, rfl, rfl, rfl, rfl, rfl, rfl, rfl⟩

theorem deliver_spec (p : Port) (b : Byte) (s : State) :
    ∃ f, deliver p b s = s.setFe p f ∧ f.hold = false ∧ f.byte = .delivering b ∧ f.role = .read ∧
      (f.drive = .low ↔ b.msb = false) ∧ f.bus = (s.fe p).bus ∧ f.timer = .counting :=
  ⟨_, rfl, rfl, rfl, rfl, by cases h : b.msb <;> simp, rfl, rfl⟩

theorem releaseLines_spec (p : Port) (s : State) :
    ∃ f, releaseLines p s = s.setFe p f ∧ f.hold = false ∧ f.byte = .none ∧ f.drive = .released ∧
      f.bus = (s.fe p).bus ∧ f.role = (s.fe p).role ∧ f.timer = (s.fe p).timer :=
  ⟨_, rfl, rfl, rfl, rfl, rfl, rfl, rfl⟩

theorem answer_keeps (p : Port) (a : Ack) (s : State) : Keeps s (answer p a s) := .setFe ..
theorem holdClock_keeps (p : Port) (s : State) : Keeps s (holdClock p s) := .setFe ..
theorem deliver_keeps (p : Port) (b : Byte) (s : State) : Keeps s (deliver p b s) := .setFe ..
theorem releaseLines_keeps (p : Port) (s : State) : Keeps s (releaseLines p s) := .setFe ..
theorem sclSeen_keeps (p : Port) (s : State) : Keeps s (sclSeen p s) := .setFe ..
theorem setRole_keeps (p : Port) (dir : Dir) (s : State) : Keeps s (setRole p dir s) := .setFe ..
theorem setState_keeps (p : Port) (c : CtxState) (s : State) : Keeps s (setState p c s) := .setCtx ..
theorem toIdle_keeps (p : Port) (s : State) : Keeps s (toIdle p s) := .setCtx ..

/-! ## Log -/

/-- The log takes every record in one way: appended with the next sequence, or dropped and counted. -/
theorem Log.take_spec (r : Report) (l : Log) :
    (l.records.length < 16 ∧ (l.take r).records = l.records ++ [⟨l.next, r⟩] ∧ (l.take r).next = l.next + 1 ∧
        (l.take r).dropped = l.dropped) ∨
      (16 ≤ l.records.length ∧ (l.take r).records = l.records ∧ (l.take r).next = l.next ∧
        (l.take r).dropped = satInc 65535 l.dropped) := by
  unfold Log.take
  split
  · rename_i h
    exact .inl ⟨h, rfl, rfl, rfl⟩
  · rename_i h
    exact .inr ⟨Nat.le_of_not_lt h, rfl, rfl, rfl⟩

theorem satInc_le (top n : Nat) : satInc top n ≤ top := by
  unfold satInc; split <;> omega

theorem hand_keeps (r : Report) (s : State) : Keeps s (hand r s) := .setLog ..

theorem handTogether_keeps (rs : List Report) (s : State) : Keeps s (handTogether rs s) := by
  unfold handTogether
  split
  · exact .refl s
  · exact hand_keeps ..
  · exact (Keeps.foldl (fun t r => hand r t) (fun t r => hand_keeps r t) _ s).trans (.drawFree _)

theorem record_spec (p : Port) (k : Kind) (i : Option Word16) (o : Nat) (s : State) :
    record p k i o s = s ∨
      ∃ a, (s.ctx p).access = some a ∧ record p k i o s = s.setLog (s.log.take (accessReport s p a k i o)) := by
  unfold record
  split
  · exact .inl rfl
  · rename_i a ha
    split
    · exact .inl rfl
    · exact .inr ⟨a, ha, rfl⟩

theorem record_keeps (p : Port) (k : Kind) (i : Option Word16) (o : Nat) (s : State) : Keeps s (record p k i o s) := by
  rcases record_spec p k i o s with h | ⟨a, _, h⟩
  · rw [h]; exact .refl s
  · rw [h]; exact .setLog ..

/-! ## Counters and refusals -/

theorem countEntry_spec (n : Fin 32) (f : Counters → Counters) (s : State) :
    countEntry n f s = s.setCounters (s.counters.set n (f s.counters[n])) := rfl

theorem claimAccepted_spec (p : Port) (s : State) :
    claimAccepted p s = s ∨
      ∃ a, (s.ctx p).access = some a ∧ a.detached = false ∧ claimAccepted p s = countEntry a.entryNo Counters.accept s := by
  unfold claimAccepted
  split
  · exact .inl rfl
  · rename_i a ha
    cases h : a.detached
    · exact .inr ⟨a, ha, h, by simp⟩
    · exact .inl (by simp)

theorem claimDenied_spec (p : Port) (s : State) :
    claimDenied p s = s ∨
      ∃ a, (s.ctx p).access = some a ∧ a.detached = false ∧ claimDenied p s = countEntry a.entryNo Counters.deny s := by
  unfold claimDenied
  split
  · exact .inl rfl
  · rename_i a ha
    cases h : a.detached
    · exact .inr ⟨a, ha, h, by simp⟩
    · exact .inl (by simp)

theorem claimAccepted_keeps (p : Port) (s : State) : Keeps s (claimAccepted p s) := by
  rcases claimAccepted_spec p s with h | ⟨a, _, _, h⟩
  · rw [h]; exact .refl s
  · rw [h]; exact .setCounters ..

theorem claimDenied_keeps (p : Port) (s : State) : Keeps s (claimDenied p s) := by
  rcases claimDenied_spec p s with h | ⟨a, _, _, h⟩
  · rw [h]; exact .refl s
  · rw [h]; exact .setCounters ..

theorem penalize_keeps (p : Port) (k : Kind) (i : Option Word16) (o : Nat) (s : State) : Keeps s (penalize p k i o s) :=
  (record_keeps ..).trans (claimDenied_keeps ..)

theorem refuseSilently_keeps (p : Port) (s : State) : Keeps s (refuseSilently p s) :=
  ((claimDenied_keeps ..).trans (answer_keeps ..)).trans (setState_keeps ..)

theorem refuse_keeps (p : Port) (k : Kind) (i : Option Word16) (o : Nat) (s : State) : Keeps s (refuse p k i o s) :=
  (record_keeps ..).trans (refuseSilently_keeps ..)

/-- Only the log and the counters: `record` and `claimDenied` keep both ports' front ends and contexts and every segment. -/
theorem penalize_local (p : Port) (k : Kind) (i : Option Word16) (o : Nat) (s : State) :
    ∃ l c, penalize p k i o s = (s.setLog l).setCounters c := by
  unfold penalize
  rcases record_spec p k i o s with h | ⟨a, _, h⟩ <;> rw [h]
  · rcases claimDenied_spec p s with h' | ⟨a', _, _, h'⟩ <;> rw [h']
    · exact ⟨s.log, s.counters, rfl⟩
    · exact ⟨s.log, _, rfl⟩
  · rcases claimDenied_spec p (s.setLog (s.log.take (accessReport s p a k i o))) with h' | ⟨a', _, _, h'⟩ <;> rw [h']
    · exact ⟨s.log.take (accessReport s p a k i o), s.counters, rfl⟩
    · exact ⟨s.log.take (accessReport s p a k i o), _, rfl⟩

/-- A refusal ends in REFUSING with the clock released and SDA released, and keeps the access record. -/
theorem refuse_spec (p : Port) (k : Kind) (i : Option Word16) (o : Nat) (s : State) :
    ∃ l c, refuse p k i o s = setState p .refusing (answer p .nak ((s.setLog l).setCounters c)) := by
  obtain ⟨l, c, h⟩ := penalize_local p k i o s
  exact ⟨l, c, by rw [← h]; rfl⟩

theorem refuse_other (p : Port) (k : Kind) (i : Option Word16) (o : Nat) (s : State) :
    KeepsOther p s (refuse p k i o s) := by
  obtain ⟨l, c, h⟩ := refuse_spec p k i o s
  rw [h]; constructor <;> simp [setState, answer]

theorem refuse_segs (p : Port) (k : Kind) (i : Option Word16) (o : Nat) (s : State) (d : Seg) :
    (refuse p k i o s).seg d = s.seg d := by
  obtain ⟨l, c, h⟩ := refuse_spec p k i o s
  rw [h]; simp [setState, answer]

theorem refuse_ctx (p : Port) (k : Kind) (i : Option Word16) (o : Nat) (s : State) :
    (refuse p k i o s).ctx p = { s.ctx p with state := .refusing } := by
  obtain ⟨l, c, h⟩ := refuse_spec p k i o s
  rw [h]; simp [setState, answer]

/-! ## Hand-back, close, release -/

theorem handBack_spec (a : Access) (v : Option Word16) (s : State) :
    handBack a v s = s ∨
      (a.detached = false ∧ handBack a v s = s.setCursors (storeCursor a.copy.target a.copy.width v s.cursors)) := by
  unfold handBack
  split
  · exact .inl rfl
  · rename_i h
    split
    · exact .inl rfl
    · exact .inr ⟨by simpa using h, rfl⟩

theorem handBack_keeps (a : Access) (v : Option Word16) (s : State) : Keeps s (handBack a v s) := by
  rcases handBack_spec a v s with h | ⟨_, h⟩
  · rw [h]; exact .refl s
  · rw [h]; exact .setCursors ..

theorem closeRequest_spec (d : Seg) (tail : Option Transfer) (s : State) :
    ∃ g, closeRequest d tail s = s.setSeg d g ∧ g.holder = none ∧ g.bus = .closing ∧ g.state = (s.seg d).state ∧
      g.transfer = (s.seg d).transfer.or tail ∧ g.openAfter = false ∧ g.lease = (s.seg d).lease ∧
      g.waiters = (s.seg d).waiters ∧ g.requests = (s.seg d).requests ∧ g.config = (s.seg d).config ∧
      g.pendingConfig = (s.seg d).pendingConfig ∧ g.resume = (s.seg d).resume :=
  ⟨_, rfl, rfl, rfl, rfl, rfl, rfl, rfl, rfl, rfl, rfl, rfl, rfl⟩

theorem closeRequest_keeps (d : Seg) (tail : Option Transfer) (s : State) : Keeps s (closeRequest d tail s) := .setSeg ..

theorem giveUp_keeps (p : Port) (v : Option Word16) (s : State) : Keeps s (giveUp p v s) := by
  unfold giveUp
  split
  · exact .refl s
  · exact (handBack_keeps ..).trans (.setCtx ..)

theorem letGo_keeps (p : Port) (v : Option Word16) (tail : Option Transfer) (s : State) : Keeps s (letGo p v tail s) := by
  unfold letGo
  split
  · exact .refl s
  · split
    · exact .refl s
    · exact (giveUp_keeps ..).trans (closeRequest_keeps ..)

theorem dropRetained_keeps (p : Port) (s : State) : Keeps s (dropRetained p s) := by
  unfold dropRetained
  split
  · exact .refl s
  · exact (closeRequest_keeps ..).trans (.setCtx ..)

theorem awaitRelease_keeps (p : Port) (d : Seg) (o : AddressOutcome) (s : State) : Keeps s (awaitRelease p d o s) :=
  ((closeRequest_keeps ..).trans (.setCtx ..)).trans (.setSeg ..)

/-- An address byte that gives up a segment leaves both front ends, the stores and its own access record alone: only the segment, which closes
and remembers what follows, and the retained mark of its context change. -/
theorem awaitRelease_spec (p : Port) (d : Seg) (o : AddressOutcome) (s : State) :
    awaitRelease p d o s =
      (s.setCtx p { s.ctx p with retained := none }).setSeg d { (s.seg d).closed none with resume := some ⟨p, o⟩ } := by
  simp [awaitRelease, closeRequest, Segment.closed]

/-! ## Arbiter -/

theorem beginOpening_keeps (d : Seg) (sda : Line) (a : Access) (s : State) : Keeps s (beginOpening d sda a s) := .setSeg ..

/-- OPENING begins without a change of segment state, holder, lease, waiters or configuration; a START in flight carries the translated address
of its access. -/
theorem beginOpening_spec (d : Seg) (sda : Line) (a : Access) (s : State) :
    ∃ g, beginOpening d sda a s = s.setSeg d g ∧ g.state = (s.seg d).state ∧ g.holder = (s.seg d).holder ∧
      g.lease = (s.seg d).lease ∧ g.waiters = (s.seg d).waiters ∧ g.requests = (s.seg d).requests ∧
      g.config = (s.seg d).config ∧ g.pendingConfig = (s.seg d).pendingConfig ∧
      (g.transfer = some (.start (decide ((s.seg d).bus = .opened)) a.copy.downAddr a.dir) ∨ g.transfer = some .busClear ∨
        (g.transfer = some .nak ∧ g.openAfter = true)) := by
  refine ⟨_, rfl, ?_⟩
  by_cases h : (s.seg d).transfer = some .nak
  · simp [h]
  · cases sda <;> simp [h, openingTransfer]

/-- The holder of a segment with its access, in the words of the statements. -/
theorem holderAccess_eq_some {d : Seg} {s : State} {p : Port} {a : Access} :
    holderAccess d s = some (p, a) ↔ (s.seg d).holder = some p ∧ (s.ctx p).access = some a := by
  unfold holderAccess
  cases h : (s.seg d).holder with
  | none => simp
  | some q =>
    constructor
    · intro e
      obtain ⟨b, hb, e⟩ := Option.map_eq_some_iff.mp e
      obtain ⟨rfl, rfl⟩ := Prod.mk.inj e
      exact ⟨rfl, hb⟩
    · rintro ⟨e, k⟩
      obtain rfl := Option.some.inj e
      exact Option.map_eq_some_iff.mpr ⟨a, k, rfl⟩

theorem beginHold_keeps (p : Port) (d : Seg) (v : Option Word16) (a : Access) (s : State) :
    Keeps s (beginHold p d v a s) := .setCtx ..

theorem grant_keeps (p : Port) (d : Seg) (sda : Line) (s : State) : Keeps s (grant p d sda s) := by
  unfold grant
  split
  · exact .refl s
  · dsimp only
    split
    · exact (((Keeps.setSeg ..).trans (beginHold_keeps ..)).trans (setState_keeps ..)).trans (beginOpening_keeps ..)
    · exact ((beginHold_keeps ..).trans (refuse_keeps ..)).trans (giveUp_keeps ..)

theorem keepSegment_keeps (p : Port) (d : Seg) (sda : Line) (s : State) : Keeps s (keepSegment p d sda s) := by
  unfold keepSegment
  split
  · exact .refl s
  · dsimp only
    split
    · exact ((beginHold_keeps ..).trans (setState_keeps ..)).trans (beginOpening_keeps ..)
    · exact ((beginHold_keeps ..).trans (giveUp_keeps ..)).trans (awaitRelease_keeps ..)

theorem waitOrBusy_keeps (p : Port) (d : Seg) (s : State) : Keeps s (waitOrBusy p d s) := by
  unfold waitOrBusy
  split
  · exact refuse_keeps ..
  · exact (Keeps.setSeg ..).trans (setState_keeps ..)

theorem request_keeps (p : Port) (d : Seg) (sda : Line) (s : State) : Keeps s (request p d sda s) := by
  unfold request
  dsimp only
  split
  · exact refuse_keeps ..
  · exact refuse_keeps ..
  · split
    · exact waitOrBusy_keeps ..
    · exact grant_keeps ..
  · exact waitOrBusy_keeps ..
  · split
    · exact .setSeg ..
    · exact waitOrBusy_keeps ..

theorem answerWaiter_keeps (d : Seg) (sda : Line) (s : State) (w : Waiter) : Keeps s (answerWaiter d sda s w) := by
  unfold answerWaiter
  dsimp only
  split
  · exact (Keeps.setSeg ..).trans (grant_keeps ..)
  · exact .refl s

theorem answerWaiters_keeps (d : Seg) (sda : Line) (s : State) : Keeps s (answerWaiters d sda s) :=
  Keeps.foldl _ (answerWaiter_keeps d sda) _ s

theorem refuseDown_keeps (ps : List Port) (extra : List Report) (s : State) : Keeps s (refuseDown ps extra s) :=
  (Keeps.foldl (fun t p => refuseSilently p t) (fun t p => refuseSilently_keeps p t) _ _).trans (handTogether_keeps ..)

theorem takeUpRequests_keeps (d : Seg) (sda : Line) (s : State) : Keeps s (takeUpRequests d sda s) :=
  (Keeps.setSeg ..).trans (Keeps.foldl _ (fun t p => request_keeps p d sda t) _ _)

theorem leaveInOrder_keeps (d : Seg) (sda : Line) (s : State) : Keeps s (leaveInOrder d sda s) := by
  unfold leaveInOrder
  dsimp only
  split
  · exact (Keeps.setSeg ..).trans (refuseDown_keeps ..)
  · exact ((Keeps.setSeg ..).trans (answerWaiters_keeps ..)).trans (takeUpRequests_keeps ..)

theorem leaveInFault_keeps (d : Seg) (stuck : List Report) (s : State) : Keeps s (leaveInFault d stuck s) :=
  (Keeps.setSeg ..).trans (refuseDown_keeps ..)

theorem enterStalled_keeps (d : Seg) (s : State) : Keeps s (enterStalled d s) :=
  (Keeps.setSeg ..).trans (takeUpRequests_keeps ..)

theorem openingFails_keeps (p : Port) (d : Seg) (s : State) : Keeps s (openingFails p d s) := by
  unfold openingFails
  split
  · exact leaveInFault_keeps ..
  · exact ((refuseSilently_keeps ..).trans (giveUp_keeps ..)).trans (leaveInFault_keeps ..)

theorem openingStuck_keeps (d : Seg) (s : State) : Keeps s (openingStuck d s) := by
  unfold openingStuck
  split
  · exact openingFails_keeps ..
  · exact leaveInFault_keeps ..

theorem openingClears_keeps (d : Seg) (sda : Line) (s : State) : Keeps s (openingClears d sda s) := by
  unfold openingClears
  dsimp only
  split
  · exact .setSeg ..
  · exact leaveInOrder_keeps ..

theorem configure_keeps (d : Seg) (c : SegConfig) (s : State) : Keeps s (configure d c s) := by
  unfold configure
  dsimp only
  split
  · exact .setSeg ..
  · exact .setSeg ..
  · split
    · exact .setSeg ..
    · exact (Keeps.setSeg ..).trans (refuseDown_keeps ..)
  · split <;> exact .setSeg ..
  · split
    · exact .setSeg ..
    · exact (Keeps.setSeg ..).trans (refuseDown_keeps ..)

theorem endLease_keeps (d : Seg) (sda : Line) (s : State) : Keeps s (endLease d sda s) := by
  unfold endLease
  dsimp only
  split
  · exact (Keeps.setSeg ..).trans (answerWaiters_keeps ..)
  · exact .setSeg ..

/-! ## When an event can arrive -/

/-- Where an upstream event can arrive, its meaning starts from the state in which SCL has been seen high. -/
theorem upstream_open {p : Port} {s : State} (k : State → Out) (h : s.open p) : upstream p s k = k (sclSeen p s) := by
  obtain ⟨⟨h1, h2, h3⟩, h4⟩ := h
  have h5 : awaitsByte p s = false := by
    unfold awaitsByte
    by_cases hs : (s.ctx p).state = .readData
    · simp [h4 hs]
    · simp [hs]
  simp [upstream, h1, h2, h3, h5]

/-! ## A view byte cut off -/

theorem advanceView_eq (p : Port) (r : ReadPosition) (s : State) : advanceView p r s = s.setMgmt p ((s.mgmt p).viewed r) := by
  cases hs : r.stored <;> cases p <;> simp [advanceView, setReading, setViewCursor, MgmtUnit.viewed, hs]

theorem cutOff_eq_self {p : Port} {s : State} (eighth : Bool) (h : (s.ctx p).state ≠ .mgmtRead) : cutOff p eighth s = s := by
  unfold cutOff
  split
  · exact absurd (by assumption) h
  · rfl

/-- A view byte in delivery that is cut off counts exactly where its eighth bit has been clocked (R151). -/
theorem cutOff_delivering {p : Port} {s : State} {r : ReadPosition} {b : Byte} (eighth : Bool) (h : (s.ctx p).state = .mgmtRead)
    (hr : (s.mgmt p).reading = some r) (hb : (s.fe p).byte = .delivering b) :
    cutOff p eighth s = if eighth then s.setMgmt p ((s.mgmt p).viewed r) else s := by
  simp [cutOff, h, hr, hb, advanceView_eq]

/-! ## Access endings, stalls and target answers -/

theorem endHeld_keeps (p : Port) (s : State) : Keeps s (endHeld p s) := by
  unfold endHeld
  dsimp only
  split
  · exact (dropRetained_keeps ..).trans (toIdle_keeps ..)
  · exact (letGo_keeps ..).trans (toIdle_keeps ..)

theorem retainHeld_keeps (p : Port) (s : State) : Keeps s (retainHeld p s) := by
  unfold retainHeld
  split
  · exact .refl s
  · split
    · exact .refl s
    · exact ((handBack_keeps ..).trans (.setSeg ..)).trans (.setCtx ..)

theorem loseAccess_keeps (p : Port) (s : State) : Keeps s (loseAccess p s) := by
  unfold loseAccess
  split
  · exact endHeld_keeps ..
  · exact (record_keeps ..).trans (endHeld_keeps ..)

theorem unanswered_keeps (p : Port) (s : State) : Keeps s (unanswered p s) :=
  (answer_keeps ..).trans (.setCtx ..)

/-- The outcome of an address byte changes, beside what traffic operations change, at most the management unit of its port. -/
theorem addressOutcome_frame (p : Port) (o : AddressOutcome) (s : State) :
    ∃ m, Keeps (s.setMgmt p m) (addressOutcome p o s) := by
  cases o with
  | unanswered => exact ⟨s.mgmt p, by rw [State.setMgmt_self]; exact unanswered_keeps ..⟩
  | frame => exact ⟨_, (answer_keeps ..).trans (.setCtx ..)⟩
  | snapshot =>
    refine ⟨{ s.mgmt p with
      selection := ⟨(s.mgmt p).selection.view, (s.mgmt p).selection.cursor % (viewBytes p s).length⟩
      reading := some ⟨viewBytes p s, (s.mgmt p).selection.cursor % (viewBytes p s).length, true⟩ }, ?_⟩
    have h : ∀ (x y : State), x = y → ∀ z, Keeps y z → Keeps x z := by rintro x _ rfl z k; exact k
    refine h _ _ ?_ _ ((deliver_keeps p (byteAt (viewBytes p s) ((s.mgmt p).selection.cursor % (viewBytes p s).length)) _).trans
      (.setCtx ..))
    cases p <;> rfl
  | refused k i => exact ⟨s.mgmt p, by rw [State.setMgmt_self]; exact refuse_keeps ..⟩
  | request sda =>
    refine ⟨s.mgmt p, ?_⟩
    rw [State.setMgmt_self]
    simp only [addressOutcome]
    split
    · exact .refl s
    · exact request_keeps ..

/-- An event that may end a release changes, beside what traffic operations change, at most one management unit. -/
theorem afterRelease_frame (d : Seg) (leave : State → State) (h : ∀ t, Keeps t (leave t)) (s : State) :
    ∃ p m, Keeps (s.setMgmt p m) (afterRelease d leave s) := by
  unfold afterRelease
  split
  · exact ⟨.A, s.mgmt .A, by rw [State.setMgmt_self]; exact h s⟩
  · rename_i r _
    let t := leave (s.setSeg d { s.seg d with resume := none })
    obtain ⟨m, hm⟩ := addressOutcome_frame r.port r.outcome t
    have ht : Keeps s t := (Keeps.setSeg ..).trans (h _)
    refine ⟨r.port, m, Keeps.trans ?_ hm⟩
    exact ⟨ht.1, ht.2, by simp only [State.setMgmt]; rw [ht.3], ht.4, ht.5, ht.6, ht.7, ht.8, ht.9, ht.10⟩

/-- Where no address byte waits for the release, the segment leaves and nothing follows. -/
theorem afterRelease_none {d : Seg} {s : State} (leave : State → State) (h : (s.seg d).resume = none) :
    afterRelease d leave s = leave s := by
  unfold afterRelease; rw [h]

/-- Where an address byte waits for the release, its outcome follows the leaving of the segment. -/
theorem afterRelease_some {d : Seg} {s : State} {r : Resume} (leave : State → State) (h : (s.seg d).resume = some r) :
    afterRelease d leave s =
      addressOutcome r.port r.outcome (leave (s.setSeg d { s.seg d with resume := none })) := by
  unfold afterRelease; rw [h]

theorem beginTransfer_keeps (p : Port) (d : Seg) (t : Transfer) (s : State) : Keeps s (beginTransfer p d t s) :=
  (Keeps.setSeg ..).trans (holdClock_keeps ..)

theorem refuseDataByte_keeps (p : Port) (a : Access) (k : Kind) (s : State) : Keeps s (refuseDataByte p a k s) :=
  (refuse_keeps ..).trans (letGo_keeps ..)

theorem cutShort_keeps (p : Port) (a : Access) (k : Kind) (s : State) : Keeps s (cutShort p a k s) :=
  (((penalize_keeps ..).trans (letGo_keeps ..)).trans (deliver_keeps ..)).trans (setState_keeps ..)

theorem refuseByTarget_keeps (p : Port) (k : Kind) (i : Option Word16) (o : Nat) (v : Option Word16) (s : State) :
    Keeps s (refuseByTarget p k i o v s) :=
  (refuse_keeps ..).trans (letGo_keeps ..)

theorem opened_keeps (p : Port) (a : Access) (d : Seg) (ninth : Bool) (s : State) : Keeps s (opened p a d ninth s) := by
  have h : Keeps s (answer p .ack (claimAccepted p s)) := (claimAccepted_keeps ..).trans (answer_keeps ..)
  unfold opened
  dsimp only
  split
  · exact h.trans (setState_keeps ..)
  · cases ninth
    · exact h.trans (setState_keeps ..)
    · exact (h.trans (beginTransfer_keeps ..)).trans (setState_keeps ..)

theorem stallAnswer_keeps (p : Port) (s : State) : Keeps s (stallAnswer p s) := by
  unfold stallAnswer
  split
  · exact (deliver_keeps ..).trans (setState_keeps ..)
  · exact setState_keeps ..
  · exact (answer_keeps ..).trans (setState_keeps ..)

theorem stallAccess_keeps (p : Port) (a : Access) (d : Seg) (s : State) : Keeps s (stallAccess p a d s) :=
  (((penalize_keeps ..).trans (giveUp_keeps ..)).trans (enterStalled_keeps ..)).trans (stallAnswer_keeps ..)

theorem stallHeld_frame (d : Seg) (s : State) : ∃ p m, Keeps (s.setMgmt p m) (stallHeld d s) := by
  have h : ∀ t, Keeps s t → ∃ p m, Keeps (s.setMgmt p m) t := fun t k => ⟨.A, s.mgmt .A, by rw [State.setMgmt_self]; exact k⟩
  unfold stallHeld
  split
  · exact h _ (openingStuck_keeps ..)
  · split
    · exact afterRelease_frame d _ (enterStalled_keeps d) s
    · split
      · exact h _ ((enterStalled_keeps ..).trans (toIdle_keeps ..))
      · exact h _ (stallAccess_keeps ..)

/-! ## Management commands -/

theorem satInc_eq (top n : Nat) : satInc top n = min top (n + 1) := by
  unfold satInc; split <;> omega

/-- The end of a good-check frame, in the words of the statements. -/
theorem goodCheckNotice_writeResult (p : Port) (c : Byte) (r : Result) (t : State) :
    goodCheckNotice p (writeResult p c r t) = reported p c r t := rfl

/-- On a port at rest a management command's row is the carrying out of its frame. -/
theorem commandRow_atRest {p : Port} {s : State} (c : Command) (sda : Line) (h : s.atRest p) :
    commandRow p c sda s = .next (takeFrame p c sda s) := by
  obtain ⟨h1, h2, h3⟩ := h
  simp only [commandRow, h1, h2, h3, CtxState.clockHeld, Bool.false_or, Bool.false_eq_true, if_false, if_true]

/-- A NORMAL port executes the command and reports its result. -/
theorem takeFrame_normal {p : Port} {s : State} (c : Command) (sda : Line) (h : (s.mgmt p).guard = .normal) :
    takeFrame p c sda s = reported p (commandCode c) (runCommand p c sda s).2 (runCommand p c sda s).1 := by
  simp [takeFrame, h, goodCheckNotice_writeResult]

/-- A GUARDED port reports GUARDED for every command that it does not carry out. -/
theorem takeFrame_guarded {p : Port} {s : State} (c : Command) (sda : Line) (h : (s.mgmt p).guard = .guarded)
    (hc : allowedGuarded c = false) : takeFrame p c sda s = reported p (commandCode c) .guarded s := by
  simp [takeFrame, h, hc, goodCheckNotice_writeResult]

theorem entryOf_ofNat (n : Fin 32) : entryOf (BitVec.ofNat 8 n.val) = some n := by revert n; decide

theorem entrySelOf_between {b : Byte} (h : 32 ≤ b.toNat) (k : b.toNat < 255) : entrySelOf b = none := by
  have hne : b ≠ 0xFF#8 := by intro e; subst e; simp at k
  simp [entrySelOf, entryOf, Nat.not_lt.mpr h, hne]

/-- Marking detached where `f` picks the access. -/
theorem detachWhere_eq (f : Access → Bool) (c : Context) :
    detachWhere f c = { c with access := c.access.map (fun a => { a with detached := a.detached || f a }) } := by
  unfold detachWhere
  congr 1
  cases c.access with
  | none => rfl
  | some a => obtain ⟨n, e, dir, h, v, i, x, k, d⟩ := a; cases d <;> simp only [Option.map_some] <;> split <;> simp_all

/-- ACKNOWLEDGE LOG removes the named record and every older one. -/
theorem acknowledged_append {q : Word16} {older newer : List Violation} {v : Violation} (hv : v.sequence = q)
    (ho : ∀ x ∈ older, x.sequence ≠ q) : acknowledged q (older ++ v :: newer) = some newer := by
  induction older with
  | nil => simp [acknowledged, hv]
  | cons x xs ih => simp [acknowledged, ho x (by simp), ih (fun y hy => ho y (by simp [hy]))]

theorem acknowledged_none {q : Word16} {l : List Violation} (h : ∀ x ∈ l, x.sequence ≠ q) : acknowledged q l = none := by
  induction l with
  | nil => rfl
  | cons x xs ih => simp [acknowledged, h x (by simp), ih (fun y hy => h y (by simp [hy]))]

/-! ## Leases, waiters and the first steps of the address phase -/

theorem barred_iff (g : Segment) (p : Port) : barred g p = true ↔ ∃ l ∈ g.lease, l.holder ≠ p := by
  unfold barred
  cases g.lease <;> simp

theorem firstSteps_none_iff (a : Access) : firstSteps a = none ↔ passesStepsOneTwo a.copy a.dir := by
  unfold firstSteps passesStepsOneTwo
  cases a.dir <;> simp

/-- After a refusal of any port, a port already refused stays so. -/
theorem refuseSilently_stays (p q : Port) (t : State)
    (h : (t.ctx q).state = .refusing ∧ (t.fe q).hold = false ∧ (t.fe q).drive = .released) :
    ((refuseSilently p t).ctx q).state = .refusing ∧ ((refuseSilently p t).fe q).hold = false ∧
      ((refuseSilently p t).fe q).drive = .released := by
  have hc : ∃ c, claimDenied p t = t.setCounters c := by
    rcases claimDenied_spec p t with e | ⟨a, _, _, e⟩
    · exact ⟨t.counters, by rw [e]; rfl⟩
    · exact ⟨_, by rw [e]; rfl⟩
  obtain ⟨c, hc⟩ := hc
  unfold refuseSilently
  rw [hc]
  cases p <;> cases q <;>
    simp_all [setState, answer, State.ctx, State.fe, State.setCtx, State.setFe, PerPort.get, PerPort.set, State.setCounters]

/-- Every port on a refused list, and every port refused before, is in REFUSING with both lines released. -/
theorem refuse_fold (ps : List Port) (t : State) (q : Port)
    (h : ((t.ctx q).state = .refusing ∧ (t.fe q).hold = false ∧ (t.fe q).drive = .released) ∨ q ∈ ps) :
    let u := ps.foldl (fun t p => refuseSilently p t) t
    (u.ctx q).state = .refusing ∧ (u.fe q).hold = false ∧ (u.fe q).drive = .released := by
  induction ps generalizing t with
  | nil =>
    rcases h with h | h
    · exact h
    · exact absurd h (by simp)
  | cons x xs ih =>
    apply ih
    rcases h with h | h
    · exact .inl (refuseSilently_stays _ _ _ h)
    · rcases List.mem_cons.mp h with h | h
      · subst h; exact .inl (by simp [refuseSilently, setState, answer])
      · exact .inr h

/-! ## Step 4 of the address phase -/

/-- Step 4 passes exactly for a write, a width-0 read, a blind read allowed, and an index inside the read window. -/
theorem stepFour_none_iff (a : Access) (v : Option Word16) : stepFour a v = none ↔ passesStepFour a.copy a.dir v := by
  unfold stepFour passesStepFour
  cases a.dir <;> cases h : a.copy.width <;> cases v <;> simp [Window.covers]

/-! ## The states in which the clock is held -/

@[simp] theorem CtxState.idle_clockHeld : CtxState.idle.clockHeld = false := rfl
@[simp] theorem CtxState.unaddressed_clockHeld : CtxState.unaddressed.clockHeld = false := rfl
@[simp] theorem CtxState.matching_clockHeld : CtxState.matching.clockHeld = true := rfl
@[simp] theorem CtxState.waiting_clockHeld : CtxState.waiting.clockHeld = true := rfl
@[simp] theorem CtxState.opening_clockHeld : CtxState.opening.clockHeld = true := rfl
@[simp] theorem CtxState.writeIndex_clockHeld : CtxState.writeIndex.clockHeld = false := rfl
@[simp] theorem CtxState.writeData_clockHeld : CtxState.writeData.clockHeld = false := rfl
@[simp] theorem CtxState.readData_clockHeld : CtxState.readData.clockHeld = false := rfl
@[simp] theorem CtxState.readEnd_clockHeld : CtxState.readEnd.clockHeld = false := rfl
@[simp] theorem CtxState.filler_clockHeld : CtxState.filler.clockHeld = false := rfl
@[simp] theorem CtxState.refusing_clockHeld : CtxState.refusing.clockHeld = false := rfl
@[simp] theorem CtxState.mgmtWrite_clockHeld : CtxState.mgmtWrite.clockHeld = false := rfl
@[simp] theorem CtxState.mgmtRead_clockHeld : CtxState.mgmtRead.clockHeld = false := rfl

end Sys2Proof.Machine
end

