-- ==== Sys2Proof/Laws/Arbiter.lean ====
section
/-! SUPPORT. What the arbiter's operations leave behind, in the words of the statements: grants, refusals at step 4, requests, and the refusal of
every waiter with the records handed to the log together. -/

namespace Sys2Proof.Machine

/-! ## Records handed together -/

theorem arrange_perm {α : Type} (n k : Nat) (l : List α) : (arrange n k l).Perm l := by
  induction n generalizing k l with
  | zero => rcases l with _ | ⟨x, _ | ⟨y, rest⟩⟩ <;> exact .refl _
  | succ n ih =>
    rcases l with _ | ⟨x, _ | ⟨y, rest⟩⟩
    · exact .refl _
    · exact .refl _
    · have hi : k % (x :: y :: rest).length < (x :: y :: rest).length := Nat.mod_lt _ (by simp)
      simp only [arrange]
      rw [List.drop_eq_getElem_cons hi, List.take_succ_cons, List.take_zero]
      exact ((ih _ _).cons _).trans (List.getElem_cons_eraseIdx_perm hi)

theorem hand_fold (rs : List Report) (s : State) :
    rs.foldl (fun t r => hand r t) s = { s with log := rs.foldl (fun l r => l.take r) s.log } := by
  induction rs generalizing s with
  | nil => rfl
  | cons r rs ih => exact ih _

/-- Records handed together are all taken, one after the other in some order. -/
theorem handTogether_takes (rs : List Report) (s : State) : LogTakes rs s (handTogether rs s) := by
  unfold handTogether
  split
  · exact ⟨[], s.freeCount, .refl _, fun _ => rfl, rfl⟩
  · exact ⟨_, s.freeCount, .refl _, fun _ => rfl, rfl⟩
  · rename_i h0 h1
    refine ⟨_, s.freeCount + 1, arrange_perm rs.length (Config.recordOrder s.freeCount) rs, fun h => ?_, ?_⟩
    · rcases rs with _ | ⟨x, _ | ⟨y, rest⟩⟩
      · exact absurd rfl h0
      · exact absurd rfl (h1 x)
      · simp at h
    · rw [hand_fold]; rfl

/-! ## Refusals -/

/-- A denied claim of the access `a`. -/
theorem claimDenied_eq {p : Port} {s : State} {a : Access} (h : (s.ctx p).access = some a) :
    claimDenied p s = s.setCounters (denied s a) := by
  simp only [claimDenied, h, denied, deniedIn]
  cases a.detached
  · simp only [Bool.false_eq_true, if_false, countEntry, Counters.deny, satInc_eq]
  · rfl

/-- A refusal less its record, for a context with the access `a`. -/
theorem refuseSilently_eq {p : Port} {s : State} {a : Access} (h : (s.ctx p).access = some a) :
    refuseSilently p s =
      ((s.setCounters (denied s a)).setFe p ((s.fe p).answering .nak)).setCtx p { s.ctx p with state := .refusing } := by
  simp [refuseSilently, claimDenied_eq h, setState, answer, FrontEnd.answering]

/-- A refusal of the access `a` whose record no quiet entry suppresses. -/
theorem refuse_eq {p : Port} {s : State} {a : Access} (h : (s.ctx p).access = some a) (k : Kind) (i : Option Word16) :
    refuse p k i 0 s = s.refusedFor p a k i := by
  have hr : record p k i 0 s = s.setLog (logged s p a k i 0) := by
    simp only [record, h, logged, accessReport, hand]
    split <;> rfl
  rw [refuse, hr, refuseSilently_eq (a := a) (by simpa using h)]
  rfl

/-- A refusal of each port of a list, one after the other. -/
theorem refuseSilently_fold (ws : List (Port × Access)) (s : State) (h : ∀ x ∈ ws, (s.ctx x.1).access = some x.2) :
    (ws.map Prod.fst).foldl (fun t p => refuseSilently p t) s = s.refusedDown ws := by
  unfold State.refusedDown
  induction ws generalizing s with
  | nil => rfl
  | cons x xs ih =>
    simp only [List.map_cons, List.foldl_cons]
    rw [refuseSilently_eq (h x (by simp))]
    refine ih _ fun y hy => ?_
    have hx := h x (by simp)
    have hy := h y (by simp [hy])
    cases hp : x.1 <;> cases hq : y.1 <;> simp_all [State.ctx, State.setCtx, State.setFe, State.setCounters, PerPort.get, PerPort.set]

theorem downRecords_eq {ps : List Port} {ws : List (Port × Access)} {s : State} (h : s.accessesAre ps ws) :
    downRecords ps s = s.downReports ws := by
  obtain ⟨rfl, h⟩ := h
  unfold downRecords State.downReports
  induction ws with
  | nil => rfl
  | cons x xs ih =>
    simp only [List.map_cons, List.filterMap_cons, h x (by simp), Option.map_some]
    rw [ih fun y hy => h y (by simp [hy])]
    rfl

theorem refusedDown_frame (ws : List (Port × Access)) (s : State) :
    ∃ c f x, s.refusedDown ws = { s with counters := c, frontEnds := f, contexts := x } := by
  unfold State.refusedDown
  induction ws generalizing s with
  | nil => exact ⟨_, _, _, rfl⟩
  | cons x xs ih =>
    obtain ⟨c, f, y, h⟩ := ih (((s.setCounters (denied s x.2)).setFe x.1 ((s.fe x.1).answering .nak)).setCtx x.1
      { s.ctx x.1 with state := .refusing })
    exact ⟨c, f, y, h⟩

/-- The contexts of a list of ports are refused SEGMENT_DOWN at once, and the records are taken together with `extra`. -/
theorem refuseDown_takes {ps : List Port} {ws : List (Port × Access)} {s : State} (h : s.accessesAre ps ws) (extra : List Report) :
    LogTakes (s.downReports ws ++ extra) (s.refusedDown ws) (refuseDown ps extra s) := by
  unfold refuseDown
  rw [downRecords_eq h, h.1, refuseSilently_fold ws s h.2]
  exact handTogether_takes ..

/-! ## Step 4, grants and requests -/

/-- The refusal that step 4 makes where it does not pass. -/
theorem stepFour_some {a : Access} {v : Option Word16} (h : ¬ passesStepFour a.copy a.dir v) :
    stepFour a v = some (if v = none then .blindRead else .readWindow, v) := by
  unfold stepFour
  simp only [passesStepFour, not_or, not_and, not_exists] at h
  obtain ⟨g1, g2, g3, g4⟩ := h
  cases hd : a.dir
  · cases v with
    | none => cases hw : a.copy.width <;> simp_all
    | some i =>
      have := g4 i rfl
      cases hw : a.copy.width <;> simp_all [Window.covers]
  · exact absurd hd g1

theorem grant_passes {p : Port} {d : Seg} {s : State} {a : Access} (sda : Line) (h : (s.ctx p).access = some a)
    (h4 : passesStepFour a.copy a.dir (loadCursor s.cursors a.copy)) : grant p d sda s = s.grantedTo p d sda a := by
  have h4' := (stepFour_none_iff a _).mpr h4
  cases sda <;> simp [grant, h, h4', State.grantedTo, beginHold, setState, beginOpening, openingTransfer]

theorem grant_refuses {p : Port} {d : Seg} {s : State} {a : Access} (sda : Line) (h : (s.ctx p).access = some a)
    (h4 : ¬ passesStepFour a.copy a.dir (loadCursor s.cursors a.copy)) : grant p d sda s = s.refusedAtFour p a := by
  simp only [grant, h, stepFour_some h4]
  rw [refuse_eq (a := { a with held := some d, cursor := loadCursor s.cursors a.copy }) (by simp [beginHold])]
  cases hd : a.detached <;> cases hw : a.copy.width <;>
    simp [giveUp, handBack, beginHold, State.refusedFor, State.refusedAtFour, handed, logged, denied, deniedIn, Access.ended, hd, hw]

/-- A request is answered from the segment's state and lease at that moment. -/
theorem request_answers {p : Port} {d : Seg} {s : State} {a : Access} (sda : Line) (h : (s.ctx p).access = some a) :
    s.Answers d p a sda (request p d sda s) := by
  have hd : refuse p .segmentDown none 0 s = s.refusedFor p a .segmentDown none := refuse_eq h _ _
  have hb : refuse p .segmentBusy none 0 s = s.refusedFor p a .segmentBusy none := refuse_eq h _ _
  have hw : (s.holdLimit p = 0 → waitOrBusy p d s = s.refusedFor p a .segmentBusy none) ∧
      (s.holdLimit p ≠ 0 → waitOrBusy p d s = s.waitsFor p d) := by
    unfold waitOrBusy
    refine ⟨fun h0 => by rw [if_pos h0, hb], fun h0 => by rw [if_neg h0]; rfl⟩
  refine ⟨?_, ?_, ?_, fun hs hh => by simp only [request, hs, hh, if_true]⟩
  · rintro (hs | hs) <;> simp only [request, hs, hd]
  · intro hs hl
    have hbar : barred (s.seg d) p = false := by
      rw [← Bool.not_eq_true, barred_iff]
      rintro ⟨l, h1, h2⟩
      exact h2 (hl l h1)
    have hr : request p d sda s = grant p d sda s := by simp [request, hs, hbar]
    rw [hr]
    exact ⟨grant_passes sda h, grant_refuses sda h⟩
  · intro hs
    have hr : request p d sda s = waitOrBusy p d s := by
      rcases hs with hs | ⟨hs, hh⟩ | ⟨hs, hl⟩
      · simp only [request, hs]
      · simp only [request, hs, hh, if_false]
      · simp only [request, hs, (barred_iff (s.seg d) p).mpr hl, if_true]
    rw [hr]; exact hw

/-- The outcome of an address byte in the words of the statements. -/
theorem addressOutcome_resolves (p : Port) (o : AddressOutcome) (t : State) : t.Resolves p o (addressOutcome p o t) := by
  refine ⟨?_, ?_, ?_, ?_, ?_⟩
  · rintro rfl
    simp [addressOutcome, unanswered, answer, State.ignored, FrontEnd.answering]
  · rintro rfl
    cases p <;> rfl
  · rintro rfl
    cases p <;> rfl
  · rintro k i a rfl h
    exact refuse_eq h k i
  · rintro sda a rfl h
    simp only [addressOutcome, h]
    exact request_answers sda h

/-! ## Leaving a segment -/

/-- A pending configuration turns enable off. -/
theorem Segment.pendsOff_iff (g : Segment) :
    g.pendsOff = true ↔ g.pendingConfig.isSome ∧ (g.pendingConfig.getD g.config).enable = false := by
  unfold Segment.pendsOff; cases g.pendingConfig <;> simp

theorem takeUpRequests_nil {d : Seg} {t : State} (sda : Line) (h : (t.seg d).requests = []) : takeUpRequests d sda t = t := by
  have hg : { t.seg d with requests := [] } = t.seg d := by rw [← h]
  simp only [takeUpRequests, h, List.foldl_nil, hg, State.setSeg_seg_self]

theorem refusedDown_setSeg (ws : List (Port × Access)) (s : State) (d : Seg) (g : Segment) :
    (s.setSeg d g).refusedDown ws = (s.refusedDown ws).setSeg d g := by
  unfold State.refusedDown
  induction ws generalizing s with
  | nil => rfl
  | cons x xs ih =>
    simp only [List.foldl_cons]
    exact ih (((s.setCounters (denied s x.2)).setFe x.1 ((s.fe x.1).answering .nak)).setCtx x.1 { s.ctx x.1 with state := .refusing })

theorem LogTakes.seg {rs : List Report} {u t : State} (h : LogTakes rs u t) (d : Seg) : t.seg d = u.seg d := by
  obtain ⟨o, n, _, _, h⟩ := h; rw [h]; rfl

/-- The contexts of a list of ports are refused in the event in which segment `d` becomes `g`. -/
theorem refuseDown_setSeg {d : Seg} {g : Segment} {ps : List Port} {ws : List (Port × Access)} {s : State} (h : s.accessesAre ps ws)
    (extra : List Report) :
    LogTakes (s.downReports ws ++ extra) ((s.refusedDown ws).setSeg d g) (refuseDown ps extra (s.setSeg d g)) := by
  have k : (s.setSeg d g).accessesAre ps ws := ⟨h.1, by simpa using h.2⟩
  have := refuseDown_takes k extra
  rw [refusedDown_setSeg] at this
  simpa [State.downReports] using this

end Sys2Proof.Machine
end

