-- ==== Sys2Proof/Laws/Canon.lean ====
section
/-! SUPPORT. The cursor map keeps its canonical form under every operation over it, the log keeps its form when it takes a record, and the
check state keeps its agreement: the pieces from which the invariants are proved. -/

namespace Sys2Proof.Machine

/-! ## Cursor map -/

/-- Storing a cursor keeps every key and its place. -/
theorem storeCursor_targets (t : Target) (w : IndexWidth) (v : Option Word16) (m : List CursorRec) :
    (storeCursor t w v m).map CursorRec.target = m.map CursorRec.target := by
  unfold storeCursor
  rw [List.map_map]
  apply List.map_congr_left
  intro r _
  simp only [Function.comp]
  split <;> rfl

/-- Clearing cursors keeps every key and its place. -/
theorem clearCursors_targets (f : Target → Bool) (m : List CursorRec) :
    (clearCursors f m).map CursorRec.target = m.map CursorRec.target := by
  unfold clearCursors
  rw [List.map_map]
  apply List.map_congr_left
  intro r _
  simp only [Function.comp]
  split <;> rfl

/-- The canonical form is a property of the keys alone. -/
theorem cursorsSorted_iff (m : List CursorRec) :
    cursorsSorted m ↔ (m.map CursorRec.target).Pairwise (fun x y => x.key < y.key) := by
  rw [List.pairwise_map]

theorem storeCursor_sorted (t : Target) (w : IndexWidth) (v : Option Word16) {m : List CursorRec}
    (h : cursorsSorted m) : cursorsSorted (storeCursor t w v m) := by
  rw [cursorsSorted_iff] at h ⊢
  rwa [storeCursor_targets]

theorem clearCursors_sorted (f : Target → Bool) {m : List CursorRec} (h : cursorsSorted m) :
    cursorsSorted (clearCursors f m) := by
  rw [cursorsSorted_iff] at h ⊢
  rwa [clearCursors_targets]

/-- What an insertion can put into the map: the record itself, or what was there. -/
theorem mem_insertKey (r : CursorRec) (m : List CursorRec) (x : CursorRec) (h : x ∈ insertKey r m) : x = r ∨ x ∈ m := by
  induction m with
  | nil => simpa [insertKey] using h
  | cons y rest ih =>
    unfold insertKey at h
    split at h
    · simpa using h
    · split at h
      · exact .inr h
      · rcases List.mem_cons.mp h with h | h
        · exact .inr (by simp [h])
        · rcases ih h with h | h
          · exact .inl h
          · exact .inr (by simp [h])

theorem insertKey_sorted (r : CursorRec) {m : List CursorRec} (h : cursorsSorted m) : cursorsSorted (insertKey r m) := by
  induction m with
  | nil => simp [insertKey, cursorsSorted]
  | cons y rest ih =>
    have hy := List.pairwise_cons.mp h
    unfold insertKey
    split
    · rename_i hlt
      refine List.pairwise_cons.mpr ⟨?_, h⟩
      intro z hz
      rcases List.mem_cons.mp hz with hz | hz
      · rw [hz]; exact hlt
      · exact hlt.trans (hy.1 z hz)
    · split
      · exact h
      · rename_i h1 h2
        refine List.pairwise_cons.mpr ⟨?_, ih hy.2⟩
        intro z hz
        rcases mem_insertKey r rest z hz with hz | hz
        · rw [hz]; omega
        · exact hy.1 z hz

theorem rebuildKeys_sorted (t : Table) (m : List CursorRec) : cursorsSorted (rebuildKeys t m) := by
  unfold rebuildKeys
  suffices ∀ (l : List Entry) (acc : List CursorRec), cursorsSorted acc → cursorsSorted (l.foldl (fun acc e =>
      if e.enabled && e.width ≠ .zero then insertKey ⟨e.target, e.width, cursorOf m e.target⟩ acc else acc) acc) from
    this _ [] List.Pairwise.nil
  intro l
  induction l with
  | nil => intro acc h; exact h
  | cons e rest ih =>
    intro acc h
    rw [List.foldl_cons]
    apply ih
    split
    · exact insertKey_sorted _ h
    · exact h

theorem committedCursors_sorted (old new : Table) (m : List CursorRec) : cursorsSorted (committedCursors old new m) :=
  clearCursors_sorted _ (rebuildKeys_sorted new m)

/-- The keys of a map stand for its targets. -/
theorem Target.key_inj {x y : Target} (h : x.key = y.key) : x = y := by
  obtain ⟨s1, a1⟩ := x; obtain ⟨s2, a2⟩ := y
  simp only [Target.key] at h
  have h1 := a1.isLt; have h2 := a2.isLt
  have : s1.val = s2.val := by omega
  have ha : a1.toNat = a2.toNat := by omega
  rw [Fin.ext this, BitVec.eq_of_toNat_eq ha]

/-! ## Log -/

theorem Log.powerOn_wf : Log.powerOn.wf := by decide

theorem Log.take_wf (r : Report) {l : Log} (h : l.wf) : (l.take r).wf := by
  obtain ⟨h1, h2, h3⟩ := h
  rcases Log.take_spec r l with ⟨hlt, hr, hn, hd⟩ | ⟨hge, hr, hn, hd⟩
  · refine ⟨?_, ?_, ?_⟩
    · rw [hr]; simp only [List.length_append, List.length_singleton]; exact hlt
    · rw [hd]; exact h2
    · rintro ⟨i, hi⟩
      have hi' : i < l.records.length + 1 := by simpa [hr] using hi
      simp only [Fin.getElem_fin, hr, hn, List.length_append, List.length_singleton]
      by_cases hlast : i < l.records.length
      · rw [List.getElem_append_left hlast]
        have := h3 ⟨i, hlast⟩
        simp only [Fin.getElem_fin] at this
        rw [this]
        have e : l.records.length + 1 - i = (l.records.length - i) + 1 := by omega
        rw [e, BitVec.ofNat_add]
        generalize BitVec.ofNat 16 (l.records.length - i) = x
        generalize l.next = y
        have : (BitVec.ofNat 16 1) = 1#16 := rfl
        grind
      · have e : i = l.records.length := by omega
        subst e
        simp
  · refine ⟨?_, ?_, ?_⟩
    · rw [hr]; exact h1
    · rw [hd]; exact satInc_le ..
    · rintro ⟨i, hi⟩
      have hi' : i < l.records.length := by simpa [hr] using hi
      have := h3 ⟨i, hi'⟩
      simp only [Fin.getElem_fin, hr, hn] at this ⊢
      exact this

theorem hand_log_wf (r : Report) {s : State} (h : s.log.wf) : (hand r s).log.wf := Log.take_wf r h

theorem handTogether_log_wf (rs : List Report) {s : State} (h : s.log.wf) : (handTogether rs s).log.wf := by
  have aux : ∀ (l : List Report) (t : State), t.log.wf → (l.foldl (fun t r => hand r t) t).log.wf := by
    intro l
    induction l with
    | nil => intro t ht; exact ht
    | cons x rest ih => intro t ht; exact ih _ (hand_log_wf x ht)
  unfold handTogether
  split
  · exact h
  · exact hand_log_wf _ h
  · exact aux _ _ h

theorem record_log_wf (p : Port) (k : Kind) (i : Option Word16) (o : Nat) {s : State} (h : s.log.wf) :
    (record p k i o s).log.wf := by
  rcases record_spec p k i o s with e | ⟨a, _, e⟩
  · rw [e]; exact h
  · rw [e]; exact Log.take_wf _ h

/-! ## Check state -/

theorem MgmtUnit.powerOn_checkWf : MgmtUnit.powerOn.checkWf := by decide

theorem checkFailure_checkWf (p : Port) (e : FirstError) {s : State} (h : (s.mgmt p).checkWf) :
    ((checkFailure p e s).mgmt p).checkWf := by
  obtain ⟨h1, h2, h3⟩ := h
  simp only [checkFailure, State.setMgmt_mgmt, MgmtUnit.checkWf]
  refine ⟨?_, ?_, satInc_le ..⟩
  · simp only [Option.isSome_some, true_iff, satInc]
    split
    · omega
    · simp
  · simp

theorem clearCheck_checkWf (p : Port) (s : State) : ((clearCheck p s).mgmt p).checkWf := by
  simp [clearCheck, MgmtUnit.checkWf]

/-! ## Counters -/

theorem Counters.accept_wf {c : Counters} (h : c.wf) : c.accept.wf := ⟨satInc_le .., h.2⟩

theorem Counters.deny_wf {c : Counters} (h : c.wf) : c.deny.wf := ⟨h.1, satInc_le ..⟩

end Sys2Proof.Machine
end

