-- ==== Sys2Proof/Laws/Commands.lean ====
section
/-! SUPPORT. The arguments of the management commands in the words of the statements, and the segment that SOFT RESET closes. -/

namespace Sys2Proof.Machine

/-! ## Item ranges -/

theorem entryOf_eq {b : Byte} {n : Fin 32} (h : b.toNat = n.val) : entryOf b = some n := by simp [entryOf, h]

theorem entryOf_none {b : Byte} (h : 32 ≤ b.toNat) : entryOf b = none := by simp [entryOf, Nat.not_lt.mpr h]

theorem segOf_eq {b : Byte} {d : Seg} (h : b.toNat = d.val) : segOf b = some d := by simp [segOf, h]

theorem segOf_none {b : Byte} (h : 4 ≤ b.toNat) : segOf b = none := by simp [segOf, Nat.not_lt.mpr h]

/-- A command that a GUARDED port carries out, in either guard state. -/
theorem takeFrame_allowed {p : Port} {c : Command} {s : State} (sda : Line) (h : allowedGuarded c = true) :
    takeFrame p c sda s = reported p (commandCode c) (runCommand p c sda s).2 (runCommand p c sda s).1 := by
  simp [takeFrame, h, goodCheckNotice_writeResult]

/-! ## STAGE ENTRY -/

/-- The arguments that STAGE ENTRY does not take. -/
theorem stageArgsOk_false_iff (m : Word16) (i : EntryImage) : stageArgsOk m i = false ↔ (m = 0#16 ∨ (∃ k, 11 ≤ k ∧ m.getLsbD k = true) ∨ (m.getLsbD 5 = true ∧ i.segWidth.toNat % 4 = 3) ∨
        (m.getLsbD 2 = true ∧ 0x7F < i.up.toNat) ∨ (m.getLsbD 4 = true ∧ 0x7F < i.down.toNat)) := by
  have a1 : (∃ k, 11 ≤ k ∧ m.getLsbD k = true) ↔ m &&& 0xF800#16 ≠ 0 := by
    have hb : ∀ k, (0xF800#16).getLsbD k = decide (11 ≤ k ∧ k < 16) := by
      intro k; by_cases hk : k < 16
      · have : ∀ j : Fin 16, (0xF800#16).getLsbD j = decide (11 ≤ j.val ∧ j.val < 16) := by decide
        exact this ⟨k, hk⟩
      · rw [BitVec.getLsbD_of_ge _ _ (by omega)]; simp; omega
    constructor
    · rintro ⟨k, h1, h2⟩ h
      have hk : k < 16 := by
        by_contra hk; rw [BitVec.getLsbD_of_ge _ _ (by omega)] at h2; cases h2
      have := congrArg (fun x : Word16 => x.getLsbD k) h
      simp only [BitVec.getLsbD_and, h2, hb, h1, hk] at this; simp at this
    · intro h
      by_contra hc
      push Not at hc
      apply h
      apply BitVec.eq_of_getLsbD_eq
      intro j hj
      rw [BitVec.getLsbD_and, hb]
      by_cases h11 : 11 ≤ j
      · simp [hc j h11]
      · simp [h11]
  have a2 : (widthOf i.segWidth).isNone = true ↔ i.segWidth.toNat % 4 = 3 := by
    generalize i.segWidth = b; revert b; decide +kernel
  have a3 : ∀ b : Byte, b.msb = true ↔ 0x7F < b.toNat := by decide +kernel
  rw [a1, ← a2, ← a3, ← a3]
  unfold stageArgsOk
  cases m.getLsbD 5 <;> cases m.getLsbD 2 <;> cases m.getLsbD 4 <;> cases (widthOf i.segWidth).isNone <;> cases i.up.msb <;> cases i.down.msb <;> simp <;> tauto

/-- What STAGE ENTRY writes, for arguments that it takes. -/
theorem stageFields_eq (m : Word16) (i : EntryImage) (old : Entry) (h : stageArgsOk m i = true) : stageFields m i old = 
          { enabled := if m.getLsbD 0 then i.flags.getLsbD 7 else old.enabled
            ports := if m.getLsbD 1 then
              (if i.flags.getLsbD 6 then (if i.flags.getLsbD 5 then .both else .onlyA)
               else if i.flags.getLsbD 5 then .onlyB else .neither) else old.ports
            upAddr := if m.getLsbD 2 then BitVec.ofNat 7 i.up.toNat else old.upAddr
            segment := if m.getLsbD 3 then Fin.ofNat 4 (i.segWidth.toNat / 16) else old.segment
            downAddr := if m.getLsbD 4 then BitVec.ofNat 7 i.down.toNat else old.downAddr
            width := if m.getLsbD 5 then
              (if i.segWidth.toNat % 4 = 0 then .zero else if i.segWidth.toNat % 4 = 1 then .one else .two) else old.width
            readWin := if m.getLsbD 6 then ⟨i.flags.getLsbD 2, i.readLow, i.readHigh⟩ else old.readWin
            writeWin := if m.getLsbD 7 then ⟨i.flags.getLsbD 1, i.writeLow, i.writeHigh⟩ else old.writeWin
            limit := if m.getLsbD 8 then i.limit else old.limit
            blind := if m.getLsbD 9 then i.flags.getLsbD 4 else old.blind
            quiet := if m.getLsbD 10 then i.flags.getLsbD 3 else old.quiet } := by
  have a1 : portSetOf (i.flags.getLsbD 6) (i.flags.getLsbD 5) = (if i.flags.getLsbD 6 then (if i.flags.getLsbD 5 then .both else .onlyA)
               else if i.flags.getLsbD 5 then .onlyB else .neither) := by
    cases i.flags.getLsbD 6 <;> cases i.flags.getLsbD 5 <;> rfl
  have a2 : imageSegment i = Fin.ofNat 4 (i.segWidth.toNat / 16) := by
    apply Fin.ext; simp [imageSegment, Fin.ofNat, Nat.shiftRight_eq_div_pow]
  have a3 : m.getLsbD 5 = true → (widthOf i.segWidth).getD old.width = (if i.segWidth.toNat % 4 = 0 then .zero else if i.segWidth.toNat % 4 = 1 then .one else .two) := by
    intro h5
    have hn : (widthOf i.segWidth).isNone = false := by
      cases hh : (widthOf i.segWidth).isNone
      · rfl
      · unfold stageArgsOk at h; rw [h5, hh] at h; simp at h
    revert hn; generalize i.segWidth = b; generalize old.width = w
    revert b w
    have : ∀ b : Byte, ∀ w ∈ [IndexWidth.zero, .one, .two], (widthOf b).isNone = false → (widthOf b).getD w = (if b.toNat % 4 = 0 then .zero else if b.toNat % 4 = 1 then .one else .two) := by decide +kernel
    intro b w; exact this b w (by cases w <;> simp)
  simp only [stageFields, a1, a2]
  congr 1
  by_cases h5 : m.getLsbD 5 = true
  · simp only [h5, if_true, a3 h5]
  · rw [if_neg h5, if_neg h5]

/-! ## SOFT RESET -/

theorem closeHeld_seg (q : Port) (tail : Option Transfer) (s : State) (d : Seg) :
    (closeHeld q tail s).seg d = if (s.ctx q).segment? = some d then (s.seg d).closed tail else s.seg d := by
  unfold closeHeld
  cases h : (s.ctx q).segment? with
  | none => simp
  | some e =>
    by_cases he : e = d
    · subst he; simp [closeRequest, Segment.closed]
    · simp only [closeRequest, Option.some.injEq, he, if_false]
      exact State.setSeg_seg_ne _ _ _ _ (fun k => he k.symm)

theorem closeHeld_keeps (q : Port) (tail : Option Transfer) (s : State) : Keeps s (closeHeld q tail s) := by
  unfold closeHeld
  split
  · exact .refl s
  · exact closeRequest_keeps ..

end Sys2Proof.Machine
end

