-- ==== Sys2Proof/Laws/Policy.lean ====
section
/-! SUPPORT. What matching and the checks of one entry say, in the words of their rules (R13, R15). -/

namespace Sys2Proof.Machine

theorem PortSet.has_iff (e : Entry) (p : Port) : e.ports.has p = true ↔ e.includes p := by
  unfold Entry.includes
  cases e.ports <;> cases p <;> simp [PortSet.has]

theorem Entry.serves_iff (e : Entry) (p : Port) (x : Addr7) :
    e.serves p x = true ↔ e.enabled = true ∧ e.includes p ∧ e.upAddr = x := by
  simp only [Entry.serves, Bool.and_eq_true, decide_eq_true_eq, PortSet.has_iff, and_assoc]

theorem reserved_iff (x : Addr7) : reserved x = true ↔ isReserved x := by
  simp only [reserved, isReserved, Bool.or_eq_true, decide_eq_true_eq]

theorem PortSet.overlaps_iff (e k : Entry) : e.ports.overlaps k.ports = true ↔ ∃ p, e.includes p ∧ k.includes p := by
  simp only [PortSet.overlaps, Bool.or_eq_true, Bool.and_eq_true, PortSet.has_iff]
  constructor
  · rintro (h | h)
    · exact ⟨.A, h⟩
    · exact ⟨.B, h⟩
  · rintro ⟨p, h⟩
    cases p
    · exact .inl h
    · exact .inr h

/-- The lower-numbered entries that a condition of R15 examines. -/
theorem lower_any (t : Table) (n : Fin 32) (f : Entry → Bool) :
    (t.toList.take n.val).any f = true ↔ ∃ j < n, f t[j] = true := by
  rw [List.any_eq_true]
  constructor
  · rintro ⟨x, hx, hf⟩
    obtain ⟨i, hi, rfl⟩ := List.mem_take_iff_getElem.mp hx
    have hn : i < n.val := by omega
    exact ⟨⟨i, by omega⟩, hn, by simpa using hf⟩
  · rintro ⟨j, hj, hf⟩
    exact ⟨t[j], List.mem_take_iff_getElem.mpr ⟨j.val, by simp; omega, by simp⟩, hf⟩

theorem Window.badBounds_iff (w : Window) (width : IndexWidth) : w.badBounds width = true ↔
    w.present = true ∧ width ≠ .zero ∧
      (w.high.toNat < w.low.toNat ∨ (width = .one ∧ (255 < w.low.toNat ∨ 255 < w.high.toNat))) := by
  cases width <;> simp [Window.badBounds, or_assoc]

theorem badBounds_iff (e : Entry) : (e.readWin.badBounds e.width || e.writeWin.badBounds e.width) = true ↔
    ∃ w, e.hasWindow w ∧ e.width ≠ .zero ∧
      (w.high.toNat < w.low.toNat ∨ (e.width = .one ∧ (255 < w.low.toNat ∨ 255 < w.high.toNat))) := by
  rw [Bool.or_eq_true, Window.badBounds_iff, Window.badBounds_iff]
  constructor
  · rintro (⟨h, k⟩ | ⟨h, k⟩)
    · exact ⟨_, ⟨h, .inl rfl⟩, k⟩
    · exact ⟨_, ⟨h, .inr rfl⟩, k⟩
  · rintro ⟨w, ⟨h, rfl | rfl⟩, k⟩
    · exact .inl ⟨h, k⟩
    · exact .inr ⟨h, k⟩

/-- The condition of reason `r` on entry `e`, given the lower-numbered entries, as validation computes it. -/
def Reason.holds (mgmt : Addr7) (lower : List Entry) (e : Entry) : Reason → Bool
  | .noPort => e.ports = .neither
  | .reservedAddress => reserved e.upAddr || reserved e.downAddr
  | .mgmtAddress => e.upAddr = mgmt && e.ports ≠ .neither
  | .duplicate => lower.any (fun j => j.enabled && j.ports.overlaps e.ports && j.upAddr = e.upAddr)
  | .windowBounds => e.readWin.badBounds e.width || e.writeWin.badBounds e.width
  | .widthMismatch => lower.any (fun j => j.enabled && j.target = e.target && j.width ≠ e.width)

theorem breaks_iff (mgmt : Addr7) (t : Table) (k : Fin 32) (r : Reason) :
    breaks mgmt t k r ↔ t[k].enabled = true ∧ r.holds mgmt (t.toList.take k.val) t[k] = true := by
  unfold breaks
  refine and_congr_right fun _ => ?_
  cases r with
  | noPort => simp [Reason.holds]
  | reservedAddress => simp only [Reason.holds, Bool.or_eq_true, reserved_iff]
  | mgmtAddress => simp [Reason.holds]
  | duplicate =>
    simp only [Reason.holds, lower_any, Bool.and_eq_true, PortSet.overlaps_iff, decide_eq_true_eq, and_assoc]
  | windowBounds => simp only [Reason.holds, badBounds_iff]
  | widthMismatch =>
    simp only [Reason.holds, lower_any, Bool.and_eq_true, decide_eq_true_eq, Entry.target, Target.mk.injEq, and_assoc]

/-- One entry fails for the first reason whose condition holds (R15). -/
theorem entryFault_eq_some_iff (mgmt : Addr7) (t : Table) (k : Fin 32) (r : Reason) :
    entryFault mgmt (t.toList.take k.val) t[k] = some r ↔
      breaks mgmt t k r ∧ ∀ r', r'.place < r.place → ¬ breaks mgmt t k r' := by
  simp only [breaks_iff]
  generalize t.toList.take k.val = lower
  generalize t[k] = e
  by_cases he : e.enabled = true
  swap
  · simp [entryFault, he]
  have hall : ∀ P : Reason → Prop, (∀ r', P r') ↔ P .noPort ∧ P .reservedAddress ∧ P .mgmtAddress ∧ P .duplicate ∧ P .windowBounds ∧
      P .widthMismatch :=
    fun P => ⟨fun h => ⟨h _, h _, h _, h _, h _, h _⟩, fun ⟨a, b, c, d, e, f⟩ r' => by cases r' <;> assumption⟩
  rw [hall]
  have h1 : Reason.holds mgmt lower e .noPort = decide (e.ports = .neither) := rfl
  have h2 : Reason.holds mgmt lower e .reservedAddress = (reserved e.upAddr || reserved e.downAddr) := rfl
  have h3 : Reason.holds mgmt lower e .mgmtAddress = (decide (e.upAddr = mgmt) && decide (e.ports ≠ .neither)) := rfl
  have h4 : Reason.holds mgmt lower e .duplicate =
    lower.any (fun j => j.enabled && j.ports.overlaps e.ports && j.upAddr = e.upAddr) := rfl
  have h5 : Reason.holds mgmt lower e .windowBounds = (e.readWin.badBounds e.width || e.writeWin.badBounds e.width) := rfl
  have h6 : Reason.holds mgmt lower e .widthMismatch =
    lower.any (fun j => j.enabled && j.target = e.target && j.width ≠ e.width) := rfl
  unfold entryFault
  cases r <;> simp only [h1, h2, h3, h4, h5, h6] <;>
    generalize (reserved e.upAddr || reserved e.downAddr) = b2 <;>
    generalize (lower.any fun j => j.enabled && j.ports.overlaps e.ports && j.upAddr = e.upAddr) = b4 <;>
    generalize (e.readWin.badBounds e.width || e.writeWin.badBounds e.width) = b5 <;>
    generalize (lower.any fun j => j.enabled && j.target = e.target && j.width ≠ e.width) = b6 <;>
    by_cases hp : e.ports = .neither <;> by_cases hm : e.upAddr = mgmt <;> cases b2 <;> cases b4 <;> cases b5 <;> cases b6 <;>
    simp [he, hp, hm, Reason.place]

end Sys2Proof.Machine
end

