-- ==== Sys2Proof/Tests/Slice0.lean ====
section
/-! SUPPORT. Tests on small states: the check byte and entry images against the manual's worked values, the well-formedness smoke, the effect of
the commands, and for each statement that has hypotheses a state that meets them (test_meets_<statement>). -/

namespace Sys2Proof.Machine.Tests

-- One theorem after the other: the checks by evaluation would otherwise each wait on a thread of its own.
set_option Elab.async false
-- The conjunctions of the invariants are long.
set_option synthInstance.maxSize 1024

/-! ## Small states -/

/-- Width 1, both ports, upstream 0x10, segment 0, read window 0..0x1F, write window 0..0x0F, length limit 3. -/
def one : Entry := ⟨true, .both, 0x10, 0, 0x20, .one, ⟨true, 0, 0x1F⟩, ⟨true, 0, 0x0F⟩, 3, false, false⟩

/-- Width 0, both ports, upstream 0x12, segment 0, no window. -/
def shut : Entry := ⟨true, .both, 0x12, 0, 0x21, .zero, .cleared, .cleared, 0, false, false⟩

/-- A part with two entries, every segment IDLE, and a cursor of 5 for the first target. -/
def base : State :=
  { State.reset with
    active := (clearedTable.set 0 one).set 1 shut
    staging := { Staging.powerOn with image := (clearedTable.set 0 one).set 1 shut }
    segments := Vector.replicate 4 { Segment.powerOn with state := .idle }
    cursors := [⟨one.target, .one, some 5⟩] }

/-- Port A's context in state `st`, on an ACTIVE bus whose next byte has the role `r`. -/
def at' (st : CtxState) (r : ByteRole) (s : State) : State :=
  (s.setFe .A { s.fe .A with bus := .active, role := r }).setCtx .A ⟨st, none, none⟩

/-- Port A awaits an address byte. -/
def addr : State := at' .idle .address base

/-- An access of port A's context to the first entry, on segment 0. -/
def acc (dir : Dir) : Access := { Access.new 0 one dir with held := some 0, cursor := some 5 }

/-- Port A's context is in `st` with the access `a`; it holds segment 0, whose transfer is `x`. A read without a transfer delivers a byte. -/
def inState (st : CtxState) (a : Access) (x : Option Transfer) : State :=
  (((at' st .written base).setCtx .A ⟨st, some a, none⟩).setSeg 0
    { Segment.powerOn with state := .held, holder := some .A, bus := .opened, transfer := x }).setFe .A
      { (at' st .written base).fe .A with byte := if st = .readData ∧ x = none then .delivering 3 else .none }

/-- Port A's read of the first entry has its address acknowledged; the ninth bit is still to be clocked. -/
def ninthDue : State :=
  let s := inState .readData (acc .read) none
  s.setFe .A { s.fe .A with byte := .none, role := .read, drive := .low, timer := .counting }

/-- Port A's context retains segment 0 after a repeated START. -/
def retained (st : CtxState) (x : Option Transfer) : State :=
  ((at' st .address base).setCtx .A ⟨st, none, some 0⟩).setSeg 0
    { Segment.powerOn with state := .held, holder := some .A, bus := .opened, transfer := x }

/-- Port A's context retains segment 1, which no entry names, and awaits an address byte. -/
def elsewhere : State :=
  (addr.setCtx .A ⟨.readEnd, none, some 1⟩).setSeg 1 { Segment.powerOn with state := .held, holder := some .A, bus := .opened }

/-- Port A's address byte, with the access `a` where it matched an entry, waits for the release of segment 1, and `o` follows. -/
def awaiting (a : Option Access) (o : AddressOutcome) : State :=
  ((base.setFe .A { base.fe .A with bus := .active, role := .written, hold := true }).setCtx .A ⟨.matching, a, none⟩).setSeg 1
    { Segment.powerOn with state := .held, bus := .closing, resume := some ⟨.A, o⟩ }

/-- Port A delivers a view byte from the last position of three; its advances are stored or not. -/
def viewing (stored : Bool) : State :=
  ((at' .mgmtRead .read base).setMgmt .A { MgmtUnit.powerOn with reading := some ⟨[1, 2, 3], 2, stored⟩ }).setFe .A
    { base.fe .A with byte := .delivering 3, role := .read, bus := .active }

/-- Port B's context waits for segment 0. -/
def waits (s : State) : State :=
  (s.setCtx .B ⟨.waiting, some (Access.new 0 one .write), none⟩).setSeg 0 { s.seg 0 with waiters := [⟨.B, 10, 0⟩] }

/-- Port B's context waits for segment 0, and port A's request for it is kept. -/
def asks (s : State) : State :=
  ((s.setCtx .A ⟨.matching, some (Access.new 0 one .read), none⟩).setCtx .B ⟨.waiting, some (Access.new 0 one .write), none⟩).setSeg 0
    { s.seg 0 with waiters := [⟨.B, 10, 0⟩], requests := [.A] }

/-- Both ports' contexts request segment 0, whose close or bus-clear (`x`) runs; its queue of requests is `ps`. -/
def requests (ps : List Port) (x : Option Transfer) : State :=
  ((base.setCtx .A ⟨.matching, some (Access.new 0 one .read), none⟩).setCtx .B ⟨.matching, some (Access.new 0 one .write), none⟩).setSeg 0
    { Segment.powerOn with state := .held, transfer := x, bus := .closing, requests := ps }

/-- Segment 0 is IDLE under port A's lease, which bars port B's read; the cursor of its target is `i`. -/
def barring (i : Nat) : State :=
  ((base.setCtx .B ⟨.waiting, some (Access.new 0 one .read), none⟩).setCursors [⟨one.target, .one, some (BitVec.ofNat 16 i)⟩]).setSeg 0
    { Segment.powerOn with state := .idle, lease := some ⟨.A, 9⟩, waiters := [⟨.B, 10, 0⟩] }

/-- Segment 0 changed by `f`. -/
def seg0 (f : Segment → Segment) (s : State) : State := s.setSeg 0 (f (s.seg 0))

/-- A frame of port A is in assembly. -/
def framing (f : Frame) : State := (at' .mgmtWrite .written base).setMgmt .A { MgmtUnit.powerOn with frame := some f }

/-- The outcome is a next state of which `f` holds. -/
def goes (o : Out) (f : State → Bool) : Bool :=
  match o with
  | .next t => f t
  | _ => false

/-- The outcome is the fault of a clock that the part holds. -/
def stopsForClock (o : Out) : Bool :=
  match o with
  | .fault .clockHeld => true
  | _ => false

/-! ## Encodings of the manual -/

/-- Worked values of the check byte: the address byte alone, and the frame of CLEAR ERROR (R139). -/
theorem test_check_byte :
    crcFold 0xFF#8 0x90#8 = 0x0F#8 ∧ runningCheck 0x48#7 [0x12#8] = 0x6A#8 := by decide +kernel

/-- The bytes of the frame of LEASE SEGMENT, the duration's high byte first (R184). -/
theorem test_frame_bytes :
    (frameBytes 0x48#7 (.leaseSegment 2 0x0102)).take 4 = [0x23, 0x02, 0x01, 0x02] := by decide +kernel

/-- The images of the two entries of section 12.1 (R185). -/
theorem test_entry_image :
    imageBytes (entryImage ⟨true, .both, 0x4C, 0, 0x4C, .one, ⟨true, 0, 0x0F⟩, .cleared, 0, false, false⟩) =
        [0xE4, 0x4C, 0x01, 0x4C, 0x00, 0, 0, 0, 0x0F, 0, 0, 0, 0] ∧
      imageBytes (entryImage ⟨true, .onlyA, 0x50, 1, 0x50, .two, ⟨true, 0, 0xFF⟩, ⟨true, 0x40, 0x7F⟩, 16, true, true⟩) =
        [0xDE, 0x50, 0x12, 0x50, 0x10, 0, 0, 0, 0xFF, 0, 0x40, 0, 0x7F] := by decide +kernel

/-- STAGE ENTRY of an entry's image with every field selected writes that entry (R173). -/
theorem test_stage_image : stageFields 0x07FF (entryImage one) Entry.cleared = one := by decide +kernel

/-- The views have the lengths of R187. -/
theorem test_view_lengths :
    (statusView .A base).length = 26 ∧ (activeEntryView 0 base).length = 20 ∧ (stagedEntryView 0 base).length = 13 ∧
      (firstErrorView .A base).length = 6 ∧ (segmentView 0 base).length = 13 ∧ (logView base).length = 3 := by decide +kernel

/-- The reasons of validation, one image for each in the order of R15, and a valid image. -/
theorem test_validate :
    validate 0x48 base.active = none ∧
      validate 0x48 (base.active.set 2 { one with ports := .neither }) = some (2, .noPort) ∧
      validate 0x48 (base.active.set 2 { one with upAddr := 0x07 }) = some (2, .reservedAddress) ∧
      validate 0x48 (base.active.set 2 { one with upAddr := 0x48 }) = some (2, .mgmtAddress) ∧
      validate 0x48 (base.active.set 2 one) = some (2, .duplicate) ∧
      validate 0x48 (base.active.set 2 { one with upAddr := 0x13, writeWin := ⟨true, 0, 256⟩ }) = some (2, .windowBounds) ∧
      validate 0x48 (base.active.set 2 { one with upAddr := 0x13, width := .two }) = some (2, .widthMismatch) := by decide +kernel

/-! ## Well-formedness: no term of Instr is ill-formed (an out-of-range value is a frame that ends INVALID) -/

theorem test_wellFormed_out_of_range :
    Instr.wellFormed (.recoverSegment .A 9) = true ∧
      goes (exec (.recoverSegment .A 9) base) (fun t => (t.mgmt .A).result = ⟨0x22, .invalid, 1⟩) = true := by decide +kernel

/-! ## Steps -/

/-- No word spells a command. -/
theorem test_no_word : decodeTableWord 8 0x12 = none ∧ State.reset.withFetchWord 8 0x12 = State.reset := ⟨rfl, rfl⟩

/-- An idle step moves the model's moment only. -/
theorem test_idle_step : step base = .next { base with now := 1 } := rfl

/-- A write to the first entry is granted the IDLE segment and drives its START. -/
theorem test_write_granted :
    goes (exec (.addressByte .A 0x20 .high) addr) (fun t =>
      (t.ctx .A).state = .opening && (t.seg 0).holder = some .A && (t.seg 0).transfer = some (.start false 0x20 .write) && (t.fe .A).hold) = true := by
  decide +kernel

/-- A data byte at an index above the write window is refused, recorded and not forwarded. -/
theorem test_byte_outside_refused :
    goes (exec (.writeDataByte .A 0x55) (inState .writeData { acc .write with cursor := some 0x10 } none)) (fun t =>
      (t.ctx .A).state = .refusing && (t.seg 0).transfer = none && (t.seg 0).bus = .closing && t.log.records.length = 1 &&
        t.counters[0].denied = 1) = true := by decide +kernel

/-- The target's ACK of a data byte advances count and cursor. -/
theorem test_data_byte_counted :
    goes (exec (.dataByteAnswer 0 .ack) (inState .writeData (acc .write) (some (.dataByte 0x55)))) (fun t =>
      (t.ctx .A).access.map (fun a => (a.count, a.cursor)) = some (1, some 6)) = true := by decide +kernel

/-- A frame byte that is no command code takes the fault UNKNOWN. -/
theorem test_unknown_command :
    goes (exec (.frameByte .A 0x15) (framing (Frame.start 0x48))) (fun t =>
      (t.mgmt .A).frame.map Frame.fault = some (some .unknown) && (t.fe .A).drive = .released) = true := by decide +kernel

/-- A wrong check byte guards a port in STOPPING mode. -/
theorem test_check_failure :
    goes (exec (.frameByte .A 0x6B) (framing ⟨some 0x12, [], 0x6A, false, none⟩)) (fun t =>
      (t.mgmt .A).guard = .guarded && (t.mgmt .A).firstError = some ⟨0x12, 0x6B, 0x6A, 1⟩) = true := by decide +kernel

/-- A complete and good frame is carried out at its STOP. -/
theorem test_frame_executed :
    goes (exec (.stop .A .high) (framing (Frame.good 0x48 (.setHoldLimit 5)))) (fun t =>
      t.holdLimit .A = 5 && (t.mgmt .A).result = ⟨0x14, .done, 1⟩ && (t.ctx .A).state = .idle) = true := by decide +kernel

/-- A STAGE ENTRY takes ownership. -/
theorem test_stage_owns :
    goes (exec (.stageEntry .A 1 0x0001 ⟨0, 0, 0, 0, 0, 0, 0, 0, 0⟩) base) (fun t =>
      t.staging.state = .owned .A && t.staging.image[1].enabled = false && t.active[1].enabled) = true := by decide +kernel

/-- A valid completion installs the image. -/
theorem test_commit_installs :
    goes (exec .commitCompletion (base.setStaging ⟨clearedTable.set 3 one, .committing .B, .stopped, .none⟩)) (fun t =>
      t.active[3] = one && t.active[0] = Entry.cleared && t.generation = 1 && t.cursors = [⟨one.target, .one, none⟩] &&
        (t.mgmt .B).result = ⟨0x44, .done, 0⟩) = true := by decide +kernel

/-- An address byte that gives up a retained segment holds the clock until the close has ended: an upstream event cannot arrive before, and the
frame begins then. -/
theorem test_frame_after_release :
    goes (exec (.addressByte .A 0x90 .high) (retained .readEnd none)) (fun t =>
      (t.fe .A).hold && (t.seg 0).bus = .closing && (t.mgmt .A).frame = none && stopsForClock (exec (.frameByte .A 0x12) t) &&
        goes (exec (.closeEnd 0 .high) t) (fun u =>
          (u.seg 0).state = .idle && (u.ctx .A).state = .mgmtWrite && (u.fe .A).drive = .low && !(u.fe .A).hold)) = true := by
  decide +kernel

/-- The request of another segment is made at the release of the retained one. -/
theorem test_request_after_release :
    goes (exec (.addressByte .A 0x20 .high) elsewhere) (fun t =>
      (t.ctx .A).state = .matching && (t.seg 0).state = .idle &&
        goes (exec (.closeEnd 1 .high) t) (fun u => (u.ctx .A).state = .opening && (u.seg 0).holder = some .A) &&
        goes (exec (.stallTimeout 1) t) (fun u =>
          (u.ctx .A).state = .opening && (u.seg 0).holder = some .A && (u.seg 1).state = .recovering)) = true := by
  decide +kernel

/-- A close end grants the waiter. -/
theorem test_waiter_granted :
    goes (exec (.closeEnd 0 .high) (waits (seg0 (fun g => { g with state := .held, bus := .closing }) base))) (fun t =>
      (t.ctx .B).state = .opening && (t.seg 0).holder = some .B && (t.seg 0).waiters = []) = true := by decide +kernel

/-! ## States that meet the hypotheses of the statements -/

theorem test_meets_StepTakesTheFront : State.reset.pending = [] := rfl

theorem test_meets_ReleaseGivesThePowerOnState : State.reset.inReset = false ∧ { State.reset with inReset := true }.inReset = true :=
  ⟨rfl, rfl⟩

theorem test_meets_ResetLowEndsEverything : { State.reset with inReset := true }.inReset = true ∧
    Instr.softReset .A ≠ .resetNLow ∧ (∀ w x y z, Instr.softReset .A ≠ .powerOn w x y z) ∧
    ∀ w x y z, Instr.softReset .A ≠ .resetNRelease w x y z := ⟨rfl, nofun, nofun, nofun⟩

/-- A FREE bus, each state at rest, a management read, and each state in which bytes pass by. -/
theorem test_meets_ConditionsWithNothingHeld :
    (base.open .A ∧ (base.fe .A).bus = .free ∧ (base.ctx .A).state = .idle) ∧
      ∀ st ∈ [CtxState.idle, .unaddressed, .filler, .refusing, .mgmtRead, .readEnd],
        let s := at' st .read base
        s.open .A ∧ (s.fe .A).bus = .active ∧ (s.ctx .A).state = st ∧ (s.fe .A).role ≠ .address ∧ (s.fe .A).byte = .none := by
  decide +kernel

/-- A management read that delivers a byte, with its advances stored or not (also for UpstreamPortReset and FillerAndViewAnswers). -/
theorem test_meets_ConditionsWithNothingHeld_delivering :
    ∀ b ∈ [true, false],
      (viewing b).open .A ∧ ((viewing b).fe .A).bus = .active ∧ ((viewing b).ctx .A).state = .mgmtRead ∧
        ((viewing b).mgmt .A).reading = some ⟨[1, 2, 3], 2, b⟩ ∧ ((viewing b).fe .A).byte = .delivering 3 := by decide +kernel

/-- A view byte cut off counts exactly where its eighth bit has been clocked: the last of three bytes wraps the view cursor from 2 to 0. -/
theorem test_view_byte_cut_off :
    let s := (viewing true).setMgmt .A { (viewing true).mgmt .A with selection := ⟨.status, 2⟩ }
    ∀ eighth ∈ [true, false],
      ∀ e ∈ [Instr.stop .A .high eighth, .upstreamStart .A .high eighth, .repeatedStart .A .high eighth, .upstreamBusTimeout .A eighth],
        goes (exec e s) (fun t => (t.mgmt .A).selection.cursor = (if eighth then 0 else 2) && (t.mgmt .A).reading = none) = true := by
  decide +kernel

theorem test_meets_StopEndsAHeldAccess_and_RepeatedStartRetainsTheSegment :
    ∀ st ∈ [CtxState.writeIndex, .writeData, .readData, .readEnd],
      (inState st (acc .read) none).open .A ∧ ((inState st (acc .read) none).fe .A).bus = .active ∧
        (inState st (acc .read) none).accessing .A st (acc .read) 0 := by decide +kernel

theorem test_meets_RetainedIntervalEnds :
    ∀ st ∈ [CtxState.writeIndex, .writeData, .readEnd],
      (retained st none).open .A ∧ ((retained st none).fe .A).bus = .active ∧ ((retained st none).ctx .A).access = none ∧
        ((retained st none).ctx .A).retained = some 0 ∧ ((retained st none).ctx .A).state = st := by decide +kernel

/-- The bounds of the reserved ranges, an address that matches nothing on each side of them, the management address, a retained segment to close,
and a valid table. -/
theorem test_meets_AddressesOutsideThePolicy :
    addr.awaitsAddress .A ∧ (∀ b ∈ [0x00#8, 0x0F#8], addressOf b ≠ addr.mgmtAddr ∧ (addressOf b).toNat < 0x08) ∧
      (∀ b ∈ [0xF0#8, 0xFF#8], addressOf b ≠ addr.mgmtAddr ∧ 0x78 ≤ (addressOf b).toNat) ∧
      (∀ b ∈ [0x10#8, 0xEF#8], addressOf b ≠ addr.mgmtAddr ∧ matchEntry addr.active .A (addressOf b) = none) ∧
      addressOf 0x90#8 = addr.mgmtAddr ∧ dirOf 0x90#8 = .write ∧
      ((retained .readEnd none).awaitsAddress .A ∧ (retained .readEnd none).mgmtAddr = addr.mgmtAddr) ∧ addr.activeValid := by
  decide +kernel

/-- A retained segment that an address byte gives up: for a management read, and for each refusal of steps 1 and 2. -/
theorem test_meets_retained_statements :
    elsewhere.awaitsAddress .A ∧ (elsewhere.ctx .A).retained = some 1 ∧ elsewhere.mgmtAddr = addr.mgmtAddr ∧
      elsewhere.active = addr.active ∧ (1 : Seg) ≠ elsewhere.active[0].segment := by decide +kernel

/-- The address, every view selected, and the two forms of each part of a view. -/
theorem test_meets_ManagementReadSnapshot :
    (addr.awaitsAddress .A ∧ addressOf 0x91#8 = addr.mgmtAddr ∧ dirOf 0x91#8 = .read) ∧
      (∀ v ∈ [View.status, .activeEntry 31, .stagedEntry 0, .log, .firstError, .segment 3],
        ((base.setMgmt .A { MgmtUnit.powerOn with selection := ⟨v, 0⟩ }).mgmt .A).selection.view = v) ∧
      (base.active[1].width = .zero ∧ base.active[0].width ≠ .zero ∧ cursorOf base.cursors base.active[0].target = some 5 ∧
        cursorOf [] base.active[0].target = none) ∧
      (∀ c ∈ [none, some (⟨.k400, 100, false⟩ : SegConfig)], ∀ l ∈ [none, some (⟨.B, 0⟩ : Lease), some ⟨.A, 2000⟩],
        let s := seg0 (fun g => { g with pendingConfig := c, lease := l }) base
        (s.seg 0).pendingConfig = c ∧ (s.seg 0).lease = l) ∧
      (∀ r ∈ [Result.done, .rejected (.entry 31 .duplicate), .rejected .abandoned],
        ((base.setMgmt .A { MgmtUnit.powerOn with result := ⟨0x44, r, 0⟩ }).mgmt .A).result.result = r) ∧
      ∀ st ∈ [StagingState.free, .owned .B, .committing .A], ∀ o ∈ [CommitOutcome.none, .done, .rejected 0 .noPort, .abandoned],
        let s := base.setStaging ⟨clearedTable, st, .stopped, o⟩
        s.staging.state = st ∧ s.staging.outcome = o := by decide +kernel

/-- A lease just ended still shows 1 ms, and a time left shows whole. -/
theorem test_remaining_time :
    (∀ x ∈ [(0, 1), (7, 1), (8, 1), (102, 95)],
      (segmentView 0 { seg0 (fun g => { g with lease := some ⟨.A, x.1⟩ }) base with now := 7 }).drop 11 =
        [0, BitVec.ofNat 8 x.2]) := by decide +kernel

theorem test_meets_RefusalAtStepsOneAndTwo :
    addr.awaitsAddress .A ∧ addressOf 0x24#8 ≠ addr.mgmtAddr ∧ reserved (addressOf 0x24#8) = false ∧
      matchEntry addr.active .A (addressOf 0x24#8) = some 1 ∧ matchEntry addr.active .A (addressOf 0x25#8) = some 1 ∧
      (dirOf 0x25#8 = .read ∧ addr.active[1].readWin.present = false) ∧
      (dirOf 0x24#8 = .write ∧ addr.active[1].width = .zero ∧ addr.active[1].writeWin.present = false) := by decide +kernel

/-- A read at each bound of the window and a write, with no lease and under the port's own (`passesStepFour` by `stepFour_none_iff`). -/
theorem test_meets_GrantOpensTheTarget :
    ∀ b ∈ [0x20#8, 0x21#8], ∀ i ∈ [0x00, 0x1F], ∀ l ∈ [none, some (⟨.A, 9⟩ : Lease)],
      let s := (seg0 (fun g => { g with lease := l }) addr).setCursors [⟨one.target, .one, some (BitVec.ofNat 16 i)⟩]
      s.awaitsAddress .A ∧ addressOf b ≠ s.mgmtAddr ∧ reserved (addressOf b) = false ∧
        matchEntry s.active .A (addressOf b) = some 0 ∧ passesStepsOneTwo s.active[0] (dirOf b) ∧ s.active[0].segment = 0 ∧
        (s.ctx .A).retained = none ∧ (s.seg 0).state = .idle ∧ (∀ l ∈ (s.seg 0).lease, l.holder = .A) ∧
        stepFour (Access.new 0 s.active[0] (dirOf b)) (loadCursor s.cursors s.active[0]) = none := by decide +kernel

/-- A read with an absent cursor, and one just above the window. -/
theorem test_meets_RefusalAtStepFour :
    ∀ m ∈ [[], [(⟨one.target, .one, some 0x20⟩ : CursorRec)]],
      let s := addr.setCursors m
      let b := 0x21#8
      let v := loadCursor s.cursors s.active[0]
      s.awaitsAddress .A ∧ addressOf b ≠ s.mgmtAddr ∧ reserved (addressOf b) = false ∧
        matchEntry s.active .A (addressOf b) = some 0 ∧ dirOf b = .read ∧ s.active[0].readWin.present = true ∧
        s.active[0].width ≠ .zero ∧ s.active[0].segment = 0 ∧ (s.ctx .A).retained = none ∧ (s.seg 0).state = .idle ∧
        (∀ l ∈ (s.seg 0).lease, l.holder = .A) ∧ cursorsSorted s.cursors ∧
        s.active[0].blind = false ∧ v = (if m = [] then none else some 0x20) ∧
        s.active[0].readWin.high.toNat < (0x20#16).toNat := by decide +kernel

/-- A segment in each state that does not grant. -/
theorem test_meets_RequestAnswers :
    (∀ g ∈ [{ Segment.powerOn with state := .disabled }, { Segment.powerOn with state := .fault }, Segment.powerOn,
        { Segment.powerOn with state := .held, holder := some .B }, { Segment.powerOn with state := .held },
        { Segment.powerOn with state := .idle, lease := some ⟨.B, 9⟩ }], ∀ n ∈ [0, 10],
      let s := (addr.setSeg 0 g).setHoldLimit .A n
      let b := 0x20#8
      s.awaitsAddress .A ∧ addressOf b ≠ s.mgmtAddr ∧ reserved (addressOf b) = false ∧
        matchEntry s.active .A (addressOf b) = some 0 ∧ passesStepsOneTwo s.active[0] (dirOf b) ∧ s.active[0].segment = 0 ∧
        (s.ctx .A).retained = none ∧ s.holdLimit .A = n ∧
        ((s.seg 0).state = .disabled ∨ (s.seg 0).state = .fault ∨ (s.seg 0).state = .recovering ∨ (s.seg 0).state = .held ∨
          ((s.seg 0).state = .idle ∧ ∃ l ∈ (s.seg 0).lease, l.holder ≠ .A))) := by decide +kernel

/-- A kept segment that passes step 4, with and without the NAK in flight, and one that does not (`stepFour_none_iff`). -/
theorem test_meets_RetainedSegmentIsKept :
    ∀ x ∈ [none, some Transfer.nak], ∀ i ∈ [0x1F, 0x20],
      let s := (retained .readEnd x).setCursors [⟨one.target, .one, some (BitVec.ofNat 16 i)⟩]
      let b := 0x21#8
      s.awaitsAddress .A ∧ addressOf b ≠ s.mgmtAddr ∧ reserved (addressOf b) = false ∧
        matchEntry s.active .A (addressOf b) = some 0 ∧ passesStepsOneTwo s.active[0] (dirOf b) ∧ s.active[0].segment = 0 ∧
        (s.ctx .A).retained = some 0 ∧
        (stepFour (Access.new 0 s.active[0] (dirOf b)) (loadCursor s.cursors s.active[0]) = none ↔ i = 0x1F) := by decide +kernel

/-- Each position of a frame: command, payload, check. -/
theorem test_meets_FrameBytesUpToTheCheck :
    (∀ f ∈ [Frame.start 0x48, ⟨some 0x23, [0, 0], 0, false, none⟩, ⟨some 0x23, [0, 0, 0], 0x77, false, none⟩],
      (framing f).open .A ∧ ((framing f).ctx .A).state = .mgmtWrite ∧ ((framing f).mgmt .A).frame = some f ∧ f.fault = none ∧
        f.matched = false) ∧
      payloadLength 0x23 = some 3 ∧ payloadLength 0x15 = none := by decide +kernel

theorem test_meets_ExtraFrameBytesAreNaked :
    (∀ f ∈ [Frame.good 0x48 .clearError, { Frame.good 0x48 .clearError with fault := some .length }],
      (framing f).open .A ∧ ((framing f).ctx .A).state = .mgmtWrite ∧ ((framing f).mgmt .A).frame = some f) ∧
      (Frame.good 0x48 .clearError).fault = none ∧ (Frame.good 0x48 .clearError).matched = true ∧
      (Frame.good 0x48 .clearError).command ≠ none := by decide +kernel

theorem test_meets_EveryCommandsFrameIsReadBack :
    let s := (framing (Frame.start 0x48)).setPending ((frameBytes 0x48 .clearError).map (Instr.frameByte .A) ++ [])
    s.open .A ∧ (s.ctx .A).state = .mgmtWrite ∧ (s.mgmt .A).frame = some (Frame.start s.mgmtAddr) ∧
      s.pending = (frameBytes s.mgmtAddr .clearError).map (Instr.frameByte .A) ++ [] := by decide +kernel

/-- A frame for each end that is not executed. -/
theorem test_meets_FramesNotExecuted :
    ∀ f ∈ [Frame.start 0x48, ⟨some 0x15, [], 0, false, some .unknown⟩, ⟨some 0x12, [], 0, false, some .check⟩,
        ⟨some 0x12, [], 0, true, some .length⟩, ⟨some 0x12, [], 0, false, none⟩],
      (framing f).open .A ∧ ((framing f).fe .A).bus = .active ∧ ((framing f).ctx .A).state = .mgmtWrite ∧
        ((framing f).mgmt .A).frame = some f := by decide +kernel

theorem test_meets_GoodFrameRunsItsCommand :
    let s := framing (Frame.good 0x48 (.leaseSegment 0 2000))
    s.open .A ∧ (s.fe .A).bus = .active ∧ (s.ctx .A).state = .mgmtWrite ∧
      (s.mgmt .A).frame = some (Frame.good s.mgmtAddr (.leaseSegment 0 2000)) := by decide +kernel

/-- The last index of the write window and the first above it, the last byte of the limit and the first beyond it. -/
theorem test_meets_WrittenBytesForwardedOrRefused :
    (inState .writeIndex (acc .write) none).accessing .A .writeIndex (acc .write) 0 ∧
      ∀ i ∈ [0x0F, 0x10], ∀ n ∈ [2, 3],
        let a := { acc .write with cursor := some (BitVec.ofNat 16 i), count := n }
        let s := inState .writeData a none
        s.open .A ∧ s.accessing .A .writeData a 0 ∧ a.copy.writeWin.present = true ∧ (i ≤ a.copy.writeWin.high.toNat ↔ i = 0x0F) ∧
          (a.count + 1 ≤ a.copy.limit.toNat ↔ n = 2) := by decide +kernel

/-- The same bounds for a read. -/
theorem test_meets_ReadAckFetchesOrCutsShort :
    ∀ i ∈ [0x1F, 0x20], ∀ n ∈ [2, 3],
      let a := { acc .read with cursor := some (BitVec.ofNat 16 i), count := n }
      let s := inState .readData a none
      s.open .A ∧ s.accessing .A .readData a 0 ∧ (i ≤ a.copy.readWin.high.toNat ↔ i = 0x1F) ∧
        (a.count + 1 ≤ a.copy.limit.toNat ↔ n = 2) := by decide +kernel

theorem test_meets_ReadNakEntersReadEnd :
    (inState .readData (acc .read) none).open .A ∧
      (inState .readData (acc .read) none).accessing .A .readData (acc .read) 0 := by decide +kernel

theorem test_meets_FillerAndViewAnswers :
    ((at' .filler .read base).open .A ∧ ((at' .filler .read base).ctx .A).state = .filler) ∧
      ∀ b ∈ [true, false],
        goes (exec (.viewByteAnswer .A .ack) (viewing b)) (fun t =>
          (t.mgmt .A).selection.cursor = 0 && (t.fe .A).byte = .delivering 1) = true := by decide +kernel

theorem test_meets_UpstreamPortReset :
    (∀ st ∈ [CtxState.idle, .unaddressed, .filler, .refusing, .mgmtRead],
        (at' st .read base).open .A ∧ ((at' st .read base).ctx .A).state = st) ∧
      (∀ st ∈ [CtxState.writeIndex, .writeData, .readData, .readEnd],
        (inState st (acc .write) none).open .A ∧ (inState st (acc .write) none).accessing .A st (acc .write) 0) ∧
      ((framing (Frame.start 0x48)).open .A ∧ ((framing (Frame.start 0x48)).ctx .A).state = .mgmtWrite ∧
        ((framing (Frame.start 0x48)).mgmt .A).frame = some (Frame.start 0x48)) := by decide +kernel

/-- The timeout timer in each phase, and a read whose address's ninth bit is still to be clocked (UpstreamPortReset). -/
theorem test_meets_UpstreamPortReset_timer :
    (∀ x ∈ [TimeoutTimer.stopped, .counting, .spent], let s := base.setFe .A { base.fe .A with timer := x }
        s.clockFree .A ∧ (s.fe .A).timer = x) ∧
      ninthDue.clockFree .A ∧ ninthDue.accessing .A .readData (acc .read) 0 ∧ (ninthDue.fe .A).timer = .counting ∧ (acc .read).count = 0 := by
  decide +kernel

/-- Before the ninth bit of a read address no condition can arrive, but the timeout timer can expire: the segment is closed without a NAK. The spent
timer does not expire again. With the ninth bit clocked, the clock is held. -/
theorem test_ninth_bit :
    stopsForClock (exec (.stop .A .high) ninthDue) = true ∧
      goes (exec (.upstreamBusTimeout .A) ninthDue) (fun t =>
        (t.ctx .A).state = .idle && (t.seg 0).transfer = none && (t.seg 0).bus = .closing && t.log.records.length = 1 &&
          (t.fe .A).timer = .spent && goes (exec (.upstreamBusTimeout .A) t) (fun u => u.log = t.log && u.frontEnds = t.frontEnds)) = true ∧
      goes (exec (.targetAddressAnswer 0 .ack) (inState .opening (acc .read) (some (.start false 0x20 .read)))) (fun t =>
        (t.fe .A).hold && (t.seg 0).transfer = some .fetch && stopsForClock (exec (.upstreamBusTimeout .A) t)) = true := by
  decide +kernel

theorem test_meets_TargetAddressAnswered :
    ∀ dir ∈ [Dir.write, .read], (inState .opening (acc dir) (some (.start true 0x20 dir))).transferring 0 (.start true 0x20 dir) .A (acc dir) := by decide +kernel

/-- The first and the last index byte of a width. -/
theorem test_meets_IndexByteAnswered :
    ∀ n ∈ [0, 1],
      let a := { acc .write with copy := { one with width := .two }, indexBytes := n }
      let s := inState .writeIndex a (some (.indexByte 7))
      s.transferring 0 (.indexByte 7) .A a ∧ (s.ctx .A).retained = none ∧ (n + 1 = a.copy.width.bytes ↔ n = 1) := by decide +kernel

theorem test_meets_DataByteAnswered :
    (inState .writeData (acc .write) (some (.dataByte 7))).transferring 0 (.dataByte 7) .A (acc .write) := by decide +kernel

theorem test_meets_FetchedByteIsDelivered :
    (inState .readData (acc .read) (some .fetch)).transferring 0 .fetch .A (acc .read) := by decide +kernel

theorem test_meets_TransfersThatReachNoContext :
    (∀ o ∈ [false, true],
      let s := seg0 (fun g => { g with openAfter := o }) (inState .opening (acc .read) (some .nak))
      s.inReset = false ∧ (s.seg 0).transfer = some .nak ∧ (s.seg 0).openAfter = o ∧ (s.seg 0).holder = some .A ∧
        (s.ctx .A).access = some (acc .read)) ∧
      ∀ x ∈ [Transfer.start false 0x20 .read, .indexByte 7, .dataByte 7, .fetch],
        let s := seg0 (fun g => { g with state := .held, transfer := some x }) base
        s.inReset = false ∧ (s.seg 0).holder = none ∧ (s.seg 0).transfer = some x := by decide +kernel

/-- With no pending configuration, and with one that turns enable on or off; with a waiter and a request that enable off refuses; with a request after
none and after another one, at each event that answers requests; and with each kind of address byte that waits for the release. -/
theorem test_meets_CloseAndRecoveryEndInOrder :
    (∀ c ∈ [none, some ⟨.k400, 100, true⟩, some (⟨.k400, 1, false⟩ : SegConfig)], ∀ st ∈ [SegState.held, .recovering],
      let s := seg0 (fun g => { g with state := st, pendingConfig := c }) base
      s.inReset = false ∧ (s.seg 0).waiters = [] ∧ (s.seg 0).requests = [] ∧ (s.seg 0).state = st ∧ (s.seg 0).holder = none ∧
        (s.seg 0).transfer = none ∧ (s.seg 0).resume = none) ∧
      (∀ x ∈ [none, some Transfer.busClear], ∀ st ∈ [SegState.held, .recovering],
        let s := asks (seg0 (fun g => { g with state := st, pendingConfig := some ⟨.k400, 1, false⟩, transfer := x }) base)
        s.inReset = false ∧ (s.seg 0).holder = none ∧ (s.seg 0).resume = none ∧ (s.seg 0).state = st ∧ (s.seg 0).transfer = x ∧
          (s.seg 0).pendingConfig = some ⟨.k400, 1, false⟩ ∧
            s.askingAre 0 [(.B, Access.new 0 one .write), (.A, Access.new 0 one .read)]) ∧
      (∀ y ∈ [(Instr.closeEnd 0 .high, none), (.openingBusClearEnd 0 .high .high, some Transfer.busClear), (.stallTimeout 0, none)],
        ∀ earlier ∈ [[], [Port.B]],
          let s := requests (earlier ++ [.A]) y.2
          s.inReset = false ∧ (s.seg 0).state = .held ∧ (s.seg 0).holder = none ∧ (s.seg 0).resume = none ∧
            (s.seg 0).pendingConfig = none ∧ (s.seg 0).requests = earlier ++ [.A] ∧ (s.seg 0).transfer = y.2 ∧
            goes (exec y.1 (s.setSeg 0 { s.seg 0 with requests := earlier }))
              (fun t => (t.ctx .A).access = some (Access.new 0 one .read)) = true) ∧
      ∀ x ∈ [(none, AddressOutcome.unanswered), (none, .frame), (none, .snapshot),
          (some (Access.new 1 shut .read), .refused .readWindow none), (some (Access.new 0 one .write), .request .high)],
        ∀ e ∈ [Instr.closeEnd 1 .high, .stallTimeout 1],
          let s := awaiting x.1 x.2
          s.inReset = false ∧ (s.seg 1).state = .held ∧ (s.seg 1).holder = none ∧ (s.seg 1).transfer ≠ some .busClear ∧
            (s.seg 1).resume = some ⟨.A, x.2⟩ ∧
            goes (exec e (s.setSeg 1 { s.seg 1 with resume := none })) (fun t => (t.ctx .A).access = x.1) = true := by decide +kernel

/-- At each event that leaves a segment available: every waiter barred; and a waiter that the lease bars before one that it lets pass, whose step 4
passes or refuses (`stepFour_none_iff`). -/
theorem test_meets_CloseEndGrantsTheFirstWaiter :
    ∀ y ∈ [(SegState.held, none), (.recovering, none), (.held, some Transfer.busClear)],
      (let s := waits (seg0 (fun g => { g with state := y.1, transfer := y.2, lease := some ⟨.A, 9⟩ }) base);
        s.inReset = false ∧ (s.seg 0).state = y.1 ∧ (s.seg 0).holder = none ∧ (s.seg 0).transfer = y.2 ∧
          (s.seg 0).pendingConfig = none ∧ (s.seg 0).requests = [] ∧ (s.seg 0).resume = none ∧ ∀ w ∈ (s.seg 0).waiters, ∃ l ∈ (s.seg 0).lease, l.holder ≠ w.port) ∧
        ∀ i ∈ [5, 0x20],
          let a := Access.new 0 one .read
          let w : Waiter := ⟨.B, 10, 0⟩
          let s := seg0 (fun g => { g with state := y.1, transfer := y.2, lease := some ⟨.B, 9⟩, waiters := [⟨.A, 10, 0⟩, w] })
            ((base.setCtx .B ⟨.waiting, some a, none⟩).setCursors [⟨one.target, .one, some (BitVec.ofNat 16 i)⟩])
          s.inReset = false ∧ (s.seg 0).holder = none ∧ (s.seg 0).requests = [] ∧ (s.seg 0).resume = none ∧ (s.seg 0).pendingConfig = none ∧
            (s.seg 0).waiters = [⟨.A, 10, 0⟩] ++ w :: [] ∧ (∀ x ∈ [(⟨.A, 10, 0⟩ : Waiter)] ++ [], x.port ≠ w.port) ∧
            (∀ x ∈ [(⟨.A, 10, 0⟩ : Waiter)], ∃ l ∈ (s.seg 0).lease, l.holder ≠ x.port) ∧ (∀ l ∈ (s.seg 0).lease, l.holder = w.port) ∧
            (s.ctx w.port).access = some a ∧ (stepFour a (loadCursor s.cursors a.copy) = none ↔ i = 5) := by
  decide +kernel

/-- Without and with a waiter and a request. -/
theorem test_meets_FailedRecoveryFaults :
    (let s := seg0 (fun g => { g with state := .recovering }) base;
      s.inReset = false ∧ (s.seg 0).state = .recovering ∧ (s.seg 0).requests = [] ∧ (s.seg 0).waiters = []) ∧
      ∀ x ∈ [(waits, [(Port.B, Access.new 0 one .write)]), (asks, [(.B, Access.new 0 one .write), (.A, Access.new 0 one .read)])],
        let s := x.1 (seg0 (fun g => { g with state := .recovering }) base)
        s.inReset = false ∧ (s.seg 0).state = .recovering ∧ s.askingAre 0 x.2 := by decide +kernel

theorem test_meets_StallOfAnAccess :
    ∀ y ∈ [(CtxState.opening, Transfer.start false 0x20 .read), (.opening, .nak), (.writeIndex, .indexByte 7), (.writeData, .dataByte 7), (.readData, .fetch),
        (.readEnd, .nak)],
      let s := inState y.1 (acc .read) (some y.2)
      s.transferring 0 y.2 .A (acc .read) ∧ y.2 ≠ .busClear ∧ (s.seg 0).state = .held ∧ (s.seg 0).requests = [] ∧
        (s.ctx .A).state = y.1 := by decide +kernel

theorem test_meets_StallWithoutAnAccess :
    (let s := seg0 (fun g => { g with state := .held, bus := .closing }) base;
      s.inReset = false ∧ (s.seg 0).state = .held ∧ (s.seg 0).transfer ≠ some .busClear ∧ (s.seg 0).requests = [] ∧
        (s.seg 0).holder = none ∧ (s.seg 0).resume = none) ∧
      let s := retained .readEnd (some .nak)
      s.inReset = false ∧ (s.seg 0).state = .held ∧ (s.seg 0).requests = [] ∧ (s.seg 0).holder = some .A ∧
        (s.seg 0).transfer = some .nak ∧ (s.ctx .A).access = none := by decide +kernel

/-- With and without a holder, and with and without waiters and requests. -/
theorem test_meets_OpeningBusClearEnds :
    (let s := inState .opening (acc .read) (some .busClear);
      s.inReset = false ∧ (s.seg 0).state = .held ∧ (s.seg 0).transfer = some .busClear ∧ (s.seg 0).waiters = [] ∧
        (s.seg 0).requests = [] ∧ (s.seg 0).holder = some .A ∧ (s.ctx .A).access = some (acc .read) ∧ (acc .read).held = some 0) ∧
      (let s := waits (inState .opening (acc .read) (some .busClear));
        (s.seg 0).holder = some .A ∧ (s.ctx .A).access = some (acc .read) ∧ s.askingAre 0 [(.B, Access.new 0 one .write)] ∧
          ∀ x ∈ [(Port.B, Access.new 0 one .write)], x.1 ≠ .A) ∧
      ∀ x ∈ [(id, []), (waits, [(Port.B, Access.new 0 one .write)]),
          (asks, [(.B, Access.new 0 one .write), (.A, Access.new 0 one .read)])],
        let s := x.1 (seg0 (fun g => { g with state := .held, transfer := some .busClear }) base)
        s.inReset = false ∧ (s.seg 0).state = .held ∧ (s.seg 0).transfer = some .busClear ∧
          (s.seg 0).holder = none ∧ s.askingAre 0 x.2 := by decide +kernel

/-- Each timer just before its end, at its end, and not running. -/
theorem test_meets_TimersExpire :
    (∀ n ∈ [9, 10],
      let s := { waits base with now := n }
      s.inReset = false ∧ (s.ctx .B).state = .waiting ∧ (s.ctx .B).access = some (Access.new 0 one .write) ∧
        ((∃ w ∈ (s.seg 0).waiters, w.port = .B ∧ w.since + w.limit ≤ s.now) ↔ n = 10) ∧
        ((∀ w ∈ (s.seg 0).waiters, w.port = .B → s.now < w.since + w.limit) ↔ n = 9)) ∧
      ((base.ctx .A).state ≠ .waiting ∧ base.inReset = false ∧ (base.seg 0).lease = none ∧ base.staging.state = .free) ∧
      ∀ n ∈ [499, 500],
        let s := { base.setStaging ⟨clearedTable, .owned .A, .counting 0, .none⟩ with now := n }
        s.inReset = false ∧ s.staging.state = .owned .A ∧ s.staging.timer = .counting 0 ∧ (0 + 500 ≤ s.now ↔ n = 500) := by
  decide +kernel

/-- A lease just before its expiry and at it, and on an IDLE segment the waiter that it bars, whose step 4 passes or refuses
(`stepFour_none_iff`). -/
theorem test_meets_TimersExpire_and_Leases_waiter :
    ∀ n ∈ [8, 9], ∀ i ∈ [5, 0x20],
      let a := Access.new 0 one .read
      let s := { barring i with now := n }
      s.ready .A ∧ (s.seg 0).lease = some ⟨.A, 9⟩ ∧ (s.seg 0).state = .idle ∧ (s.seg 0).waiters = [⟨.B, 10, 0⟩] ∧
        (s.ctx .B).access = some a ∧ (stepFour a (loadCursor s.cursors a.copy) = none ↔ i = 5) := by
  decide +kernel

/-- With a target that the commit touches, one that it keeps, and one whose key is new. -/
theorem test_meets_ValidCommitCompletes :
    let kept : Entry := { one with upAddr := 0x30, downAddr := 0x30 }
    let fresh : Entry := { one with upAddr := 0x31, downAddr := 0x31 }
    let s := { base.setStaging ⟨((base.active.set 0 { one with limit := 9 }).set 2 kept).set 3 fresh, .committing .A, .stopped, .none⟩ with
      active := base.active.set 2 kept, cursors := [⟨one.target, .one, some 5⟩, ⟨kept.target, .one, some 7⟩] }
    s.inReset = false ∧ s.staging.state = .committing .A ∧ validate s.mgmtAddr s.staging.image = none ∧ cursorsSorted s.cursors ∧
      touched s.active s.staging.image one.target = true ∧ touched s.active s.staging.image kept.target = false ∧
      (∀ x ∈ s.cursors, x.target ≠ fresh.target) ∧
      goes (exec .commitCompletion s) (fun t => t.cursors.map CursorRec.cursor = [none, some 7, none]) = true := by decide +kernel

/-- The first and the last entry failing. -/
theorem test_meets_InvalidCommitCompletes :
    ∀ k ∈ [(0 : Fin 32), 31],
      let s := base.setStaging ⟨clearedTable.set k { one with ports := .neither }, .committing .A, .stopped, .none⟩
      s.inReset = false ∧ s.staging.state = .committing .A ∧ validate s.mgmtAddr s.staging.image = some (k, .noPort) := by decide +kernel

/-- Port A is at rest and NORMAL (RecoverSegment, RevertAndDiscard, SoftReset and the other statements over management commands). -/
theorem test_meets_ready : base.ready .A := by decide +kernel

/-- Port A is at rest, NORMAL and GUARDED. -/
theorem test_meets_PortSettings :
    ∀ g ∈ [Guard.normal, .guarded],
      let s := base.setMgmt .A { MgmtUnit.powerOn with guard := g }
      s.atRest .A ∧ (s.mgmt .A).guard = g := by decide +kernel

/-- Settings at their bounds and just out of range, in every state, without and with a waiter. -/
theorem test_meets_ConfigureSegment :
    ((3#8).toNat = (3 : Seg).val ∧ 4 ≤ (4#8).toNat ∧ 1 ≤ (1#8).toNat ∧ (100#8).toNat ≤ 100 ∧ 100 < (101#8).toNat ∧ (0#8).toNat = 0 ∧
        2 ≤ (2#8).toNat) ∧
      ∀ st ∈ [SegState.disabled, .idle, .held, .recovering, .fault],
        let s := seg0 (fun g => { g with state := st }) base
        s.ready .A ∧ (s.seg 0).state = st ∧ (s.seg 0).waiters = [] ∧ (waits s).ready .A ∧ ((waits s).seg 0).state = st ∧
          (waits s).waitingAre 0 [(.B, Access.new 0 one .write)] := by decide +kernel

/-- Durations at their bounds and just out of range, and a lease of either port. -/
theorem test_meets_Leases :
    ((0#8).toNat = (0 : Seg).val ∧ 4 ≤ (4#8).toNat ∧ (1#16).toNat = 1 ∧ (2000#16).toNat = 2000 ∧ 2000 < (2001#16).toNat) ∧
      ∀ p ∈ [Port.A, .B],
        let s := seg0 (fun g => { g with lease := some ⟨p, 9⟩ }) base
        s.ready .A ∧ (s.seg 0).lease = some ⟨p, 9⟩ ∧ (s.seg 0).waiters = [] ∧
          ((∃ l ∈ (s.seg 0).lease, l.holder ≠ .A) ↔ p = .B) := by decide +kernel

/-- A log that holds the named record behind an older one. -/
theorem test_meets_LogCountersAndMask :
    let s := hand (segmentReport base 0) (hand (segmentReport base 0) (hand (segmentReport base 0) base))
    s.ready .A ∧ s.log.records.map Violation.sequence = [0, 1, 2] ∧ (31#8).toNat < 32 ∧ 32 ≤ (254#8).toNat ∧
      (254#8).toNat < 255 := by decide +kernel

/-- An entry whose target holds a key, and one of width 0. -/
theorem test_meets_InvalidateCursor :
    base.ready .A ∧ base.active[0].width ≠ .zero ∧ (∃ r ∈ base.cursors, r.target = base.active[0].target) ∧
      base.active[1].width = .zero := by decide +kernel

/-- Arguments that are taken and, for each check, some that are not (`stageArgsOk_false_iff`), an entry number on each side of its bound, and every
staging state. -/
theorem test_meets_StageAndCommit_and_RevertAndDiscard :
    (stageArgsOk 0x07FF (entryImage one) = true ∧ stageArgsOk 0x0000 (entryImage one) = false ∧
        stageArgsOk 0x0800 (entryImage one) = false ∧ stageArgsOk 0x0020 { entryImage one with segWidth := 3 } = false ∧
        stageArgsOk 0x0004 { entryImage one with up := 0x80 } = false ∧ stageArgsOk 0x0010 { entryImage one with down := 0x80 } = false ∧
        (31#8).toNat = (31 : Fin 32).val ∧ 32 ≤ (32#8).toNat) ∧
      ∀ st ∈ [StagingState.free, .owned .A, .owned (other .A), .committing .A, .committing .B],
        (base.setStaging { base.staging with state := st }).ready .A ∧
          (base.setStaging { base.staging with state := st }).staging.state = st := by decide +kernel

/-- The other port in every state, with the clock held or not, and with a segment retained. -/
theorem test_meets_SoftReset :
    (∀ st ∈ [CtxState.idle, .unaddressed, .filler, .refusing, .mgmtWrite, .mgmtRead, .matching, .waiting, .opening],
      (at' st .read base).ready .B ∧ ((at' st .read base).ctx (other .B)).state = st) ∧
      (∀ st ∈ [CtxState.writeIndex, .writeData, .readData, .readEnd], ∀ h ∈ [false, true],
        let s := inState st (acc .read) none
        let u := s.setFe .A { s.fe .A with hold := h }
        u.ready .B ∧ (u.ctx (other .B)).state = st ∧ (u.ctx (other .B)).retained = none ∧
          (∃ a ∈ (u.ctx (other .B)).access, a.held = some 0)) ∧
      (∀ st ∈ [CtxState.writeIndex, .writeData, .readEnd],
        (retained st none).ready .B ∧ ((retained st none).ctx (other .B)).state = st ∧
          ((retained st none).ctx (other .B)).access = none ∧ ((retained st none).ctx (other .B)).retained = some 0) ∧
      ∀ x ∈ [StagingState.free, .owned .A, .owned .B, .committing .A, .committing .B],
        (base.setStaging { base.staging with state := x }).ready .B ∧ (base.setStaging { base.staging with state := x }).staging.state = x := by
  decide +kernel

/-- A read whose address's ninth bit is still to be clocked: 0xFF is delivered as byte 0, and the segment is closed without a NAK (SoftReset). -/
theorem test_meets_SoftReset_ninthDue :
    ninthDue.ready .B ∧ (ninthDue.ctx (other .B)).state = .readData ∧ delivering (other .B) ninthDue = false ∧
      goes (exec (.softReset .B) ninthDue) (fun t =>
        (t.ctx .A).state = .filler && (t.fe .A).byte = .delivering 0xFF && (t.seg 0).transfer = none && (t.seg 0).bus = .closing &&
          goes (exec (.fillerByteAnswer .A .nak) t) (fun u => (u.ctx .A).state = .refusing)) = true := by decide +kernel

/-- An address byte that waits for a release: aborted where it matched an entry, and else kept waiting (SoftReset). -/
theorem test_meets_SoftReset_awaiting :
    ∀ x ∈ [(none, AddressOutcome.frame), (some (Access.new 0 one .write), .request .high)],
      let s := awaiting x.1 x.2
      s.ready .B ∧ (s.ctx (other .B)).state = .matching ∧ (s.ctx (other .B)).access = x.1 ∧ (s.seg 1).resume = some ⟨.A, x.2⟩ ∧
        goes (exec (.softReset .B) s) (fun t =>
          (t.ctx .A).state = (if x.1 = none then .matching else .refusing) && (t.seg 1).resume.isSome = x.1.isNone) = true := by
  decide +kernel

/-- SOFT RESET from the other port closes the segment of a read in delivery and leaves the read in FILLER. -/
theorem test_soft_reset_aborts :
    goes (exec (.softReset .B) (inState .readData (acc .read) none)) (fun t =>
      (t.ctx .A).state = .filler && (t.seg 0).holder = none && (t.seg 0).bus = .closing && (t.seg 0).transfer = some .nak) = true := by
  decide +kernel

theorem test_meets_GuardedPortsRefuse :
    let s := base.setMgmt .A { MgmtUnit.powerOn with guard := .guarded }
    s.atRest .A ∧ (s.mgmt .A).guard = .guarded ∧ Command.softReset ≠ .clearError := by decide +kernel

/-- A state in which the parts are busy satisfies the invariants, and its next step goes on. -/
def busy : State := (inState .writeData (acc .write) none).setPending [.writeDataByte .A 7]

theorem test_meets_StepKeeps :
    busy.log.wf ∧ busy.countsWf ∧ busy.checkWf ∧ busy.activeValid ∧ busy.cursorsWf ∧ busy.indexesWf ∧ busy.configsWf ∧
      goes (step busy) (fun t => (t.seg 0).transfer = some (.dataByte 7)) = true := by decide +kernel

/-- Every count at the top of its range. -/
theorem test_meets_StepKeepsLogAndCounts_tops :
    let s := ((((waits (inState .writeData { acc .write with count := 255 } none)).setHoldLimit .A 50).setMgmt .A
      { MgmtUnit.powerOn with failures := 255 }).setCounters (Vector.replicate 32 ⟨65535, 65535⟩)).setLog
        (Log.powerOn.take ⟨.stuck, none, none, none, none, 0, none, 0, 255⟩)
    s.log.wf ∧ s.countsWf := by decide +kernel

theorem test_meets_StepKeepsManagementUnits : busy.framesWf := ⟨by decide +kernel, by decide +kernel⟩

theorem test_meets_StepKeepsThePolicyValid : busy.stagingWf := by
  refine ⟨by decide +kernel, fun p h => ?_, fun p h => ?_⟩ <;> cases p <;> exact absurd h (by decide +kernel)

/-- A table in which validation finds nothing and one in which it finds an entry. -/
theorem test_meets_StepKeepsThePolicyValid_validation :
    validate 0x48 base.active = none ∧ validate 0x48 (base.active.set 31 { one with ports := .neither }) = some (31, .noPort) ∧
      base.active[0].enabled = true ∧ base.active[0].includes .A ∧ base.active[0].hasWindow ⟨true, 0, 0x1F⟩ ∧
      base.active[0].width ≠ .zero := by decide +kernel

theorem test_meets_StepKeepsHoldersConsistent : busy.trafficWf := ⟨by decide +kernel, by decide +kernel, by decide +kernel⟩

/-- The ports and the segments agree also while an address byte waits for a release. -/
theorem test_meets_StepKeepsHoldersConsistent_ninthDue : ninthDue.trafficWf := ⟨by decide +kernel, by decide +kernel, by decide +kernel⟩

/-- The step to that state is the target's ACK with the operand `ninth` off (TargetAddressAnswered). -/
theorem test_ninthDue_reached :
    goes (exec (.targetAddressAnswer 0 .ack false) (inState .opening (acc .read) (some (.start false 0x20 .read)))) (fun t =>
      (t.ctx .A).state = .readData && !(t.fe .A).hold && (t.fe .A).drive = .low && (t.fe .A).timer = .counting &&
        (t.seg 0).transfer = none && segLines t 0 = .sclHeld) = true := by decide +kernel

theorem test_meets_StepKeepsHoldersConsistent_awaiting : (awaiting none .frame).trafficWf :=
  ⟨by decide +kernel, by decide +kernel, by decide +kernel⟩

/-- The lines of a segment in each case. -/
theorem test_meets_AttentionLine :
    (∀ st ∈ [SegState.disabled, .idle, .fault, .recovering], ((seg0 (fun g => { g with state := st }) base).seg 0).state = st) ∧
      (∀ b ∈ [SegBus.idle, .opened, .closing],
        let s := seg0 (fun g => { g with state := .held, holder := some .A, bus := b }) base
        s.inReset = false ∧ (s.seg 0).state = .held ∧ (s.seg 0).transfer = none ∧ (s.seg 0).bus = b ∧ (s.seg 0).holder ≠ none) ∧
      ((inState .readData (acc .read) (some .fetch)).seg 0).transfer ≠ none ∧ segLines { base with inReset := true } 0 = .released := by
  decide +kernel

/-- The step of `busy` puts its data byte onto the bus. -/
theorem test_meets_NoDataByteOutsideThePolicy :
    (busy.seg 0).transfer ≠ some (.dataByte 7) ∧
      goes (exec (.writeDataByte .A 7) busy) (fun t => (t.seg 0).transfer = some (.dataByte 7)) = true := by decide +kernel

theorem test_meets_AcceptedOnlyAfterTheTargetsAck :
    let s := inState .opening (acc .write) (some (.start false 0x20 .write))
    goes (exec (.targetAddressAnswer 0 .ack) s) (fun t => s.counters[0].accepted < t.counters[0].accepted) = true := by decide +kernel

theorem test_meets_PolicyChangesOnlyByCommit :
    let s := base.setStaging ⟨clearedTable, .committing .A, .stopped, .none⟩
    goes (exec .commitCompletion s) (fun t => t.active ≠ s.active && t.generation ≠ s.generation) = true ∧
      goes (exec (.powerOn false false .high .high) s) (fun t => t.active ≠ s.active) = true := by decide +kernel

end Sys2Proof.Machine.Tests
end

section
/-! PROOFS. The upstream NAK of a read byte (R57), with the facts it needs about the access that an upstream event finds. -/

namespace Sys2Proof.Machine

/-! ## The access that an event finds -/

/-- `heldIn` answers the access and the segment exactly where the port's context is in that state with that access. -/
theorem heldIn_eq_some_iff {p : Port} {st : CtxState} {s : State} {a : Access} {d : Seg} :
    heldIn p st s = some (a, d) ↔ s.accessing p st a d := by
  unfold heldIn
  split
  case isFalse hst => simp [hst]
  case isTrue hst =>
    cases hacc : (s.ctx p).access with
    | none => simp [hacc]
    | some x =>
      suffices (x.held = some d ∧ x = a) ↔ (x = a ∧ a.held = some d) by simpa [State.accessing, hacc, hst]
      constructor
      · rintro ⟨hheld, rfl⟩
        exact ⟨rfl, hheld⟩
      · rintro ⟨rfl, hheld⟩
        exact ⟨hheld, rfl⟩

/-- A clocked bit does not move the access that an event finds. -/
@[simp] theorem heldIn_sclSeen (p q : Port) (st : CtxState) (s : State) : heldIn p st (sclSeen q s) = heldIn p st s :=
  rfl

@[simp] theorem sclSeen_seg (p : Port) (s : State) (d : Seg) : (sclSeen p s).seg d = s.seg d := rfl

/-! ## The upstream NAK of a read byte (R57) -/

/-- After a clocked bit the part lets both lines go (R27, R33). -/
theorem releaseLines_sclSeen (p : Port) (s : State) :
    releaseLines p (sclSeen p s) = s.setFe p (s.fe p).clocked.silent := by
  simp [releaseLines, sclSeen_spec, FrontEnd.clocked, FrontEnd.silent]

theorem releaseLines_setSeg (p : Port) (d : Seg) (g : Segment) (s : State) :
    releaseLines p (s.setSeg d g) = (releaseLines p s).setSeg d g := rfl

theorem exec_readByteNak (p : Port) (s : State) : exec (.readByteNak p) s = execReadByteNak p s := rfl

/-- In an access the NAK of a read byte has one meaning: the segment is asked for the target's NAK, and the context goes to READ_END. -/
theorem execReadByteNak_accessing {p : Port} {s : State} {a : Access} {d : Seg} (ho : s.open p)
    (ha : s.accessing p .readData a d) :
    execReadByteNak p s = .next (setState p .readEnd (releaseLines p
      ((sclSeen p s).setSeg d { s.seg d with transfer := some .nak }))) := by
  have hheld : heldIn p .readData (sclSeen p s) = some (a, d) := by
    rw [heldIn_sclSeen, heldIn_eq_some_iff]
    exact ha
  unfold execReadByteNak
  rw [upstream_open _ ho]
  simp only [hheld, sclSeen_seg]

/-- Settles O23: the front end, the context and the segment are each changed once, and nothing else. -/
theorem readNakEntersReadEnd : Obligations.ReadNakEntersReadEnd := by
  intro p s a d ho ha
  rw [exec_readByteNak, execReadByteNak_accessing ho ha, releaseLines_setSeg, releaseLines_sclSeen]
  simp [setState]

end Sys2Proof.Machine
end

section
/-! PROOFS. Bytes past the end of a management frame (R141), with the facts about the frame assembler that they need. -/

namespace Sys2Proof.Machine

/-! ## The assembler's operations and a clocked bit -/

/-- After a clocked bit the part gives the ninth bit, and the front end changes in nothing else (R27, R33). -/
theorem answer_sclSeen (p : Port) (a : Ack) (s : State) :
    answer p a (sclSeen p s) = s.setFe p ((s.fe p).clocked.answering a) := by
  cases a <;> simp [answer, sclSeen_spec, FrontEnd.clocked, FrontEnd.answering]

theorem answer_setFrame (p : Port) (a : Ack) (f : Option Frame) (s : State) :
    answer p a (setFrame p f s) = setFrame p f (answer p a s) := rfl

theorem setFrame_setFe (p q : Port) (f : Option Frame) (g : FrontEnd) (s : State) :
    setFrame p f (s.setFe q g) = (s.setFe q g).setMgmt p { s.mgmt p with frame := f } := rfl

/-! ## The byte that a frame takes (R138, R141) -/

theorem exec_frameByte (p : Port) (b : Byte) (s : State) : exec (.frameByte p b) s = execFrameByte p b s := rfl

/-- A byte of a frame in assembly is given to the assembler as it stands, after the bits that clocked it in. -/
theorem execFrameByte_assembling {p : Port} {b : Byte} {s : State} {f : Frame} (ho : s.open p)
    (hst : (s.ctx p).state = .mgmtWrite) (hf : (s.mgmt p).frame = some f) :
    execFrameByte p b s = .next (takeFrameByte p f b (sclSeen p s)) := by
  have hst' : ((sclSeen p s).ctx p).state = .mgmtWrite := hst
  have hf' : ((sclSeen p s).mgmt p).frame = some f := hf
  unfold execFrameByte
  rw [upstream_open _ ho]
  simp only [hst', hf']

/-- A frame with a fault takes no more bytes: nothing is folded in or counted, and the fault stays (R141). -/
theorem takeFrameByte_of_fault {f : Frame} (p : Port) (b : Byte) (s : State) (h : f.fault ≠ none) :
    takeFrameByte p f b s = answer p .nak s := by
  obtain ⟨e, he⟩ := Option.ne_none_iff_exists'.mp h
  simp only [takeFrameByte, he]

/-- A complete and good frame takes from one byte more only the fault LENGTH (R141). -/
theorem takeFrameByte_of_matched {f : Frame} (p : Port) (b : Byte) (s : State) (hfault : f.fault = none)
    (hmatched : f.matched = true) (hcommand : f.command ≠ none) :
    takeFrameByte p f b s = answer p .nak (setFrame p (some { f with fault := some .length }) s) := by
  obtain ⟨code, hcode⟩ := Option.ne_none_iff_exists'.mp hcommand
  simp only [takeFrameByte, hfault, hcode, hmatched, if_true]

/-- Settles O17: by whether the frame has met a fault before the byte, or is complete and good. -/
theorem extraFrameBytesAreNaked : Obligations.ExtraFrameBytesAreNaked := by
  intro p b s f ho hst hf
  rw [exec_frameByte, execFrameByte_assembling ho hst hf]
  constructor
  · intro hfault hmatched hcommand
    rw [takeFrameByte_of_matched p b _ hfault hmatched hcommand, answer_setFrame, answer_sclSeen, setFrame_setFe]
  · intro hfault
    rw [takeFrameByte_of_fault p b _ hfault, answer_sclSeen]

end Sys2Proof.Machine
end

section
/-! PROOFS. The invalid completion of a commit (R181), with the facts about a running part and about COMMIT_COMPLETION that it needs. -/

namespace Sys2Proof.Machine

/-! ## An event that a running part takes -/

/-- Outside reset an event has its own effect (R38). -/
theorem running_awake {s : State} (k : State → Out) (h : s.inReset = false) : running s k = k s := by
  simp [running, h]

/-! ## The completion of a commit (R179, R181) -/

theorem exec_commitCompletion (s : State) : exec .commitCompletion s = execCommitCompletion s := rfl

/-- While a commit is in flight, the event completes it for the port that issued it (R179). -/
theorem execCommitCompletion_committing {p : Port} {s : State} (hr : s.inReset = false)
    (hst : s.staging.state = .committing p) : execCommitCompletion s = .next (complete p s) := by
  unfold execCommitCompletion
  rw [running_awake _ hr]
  simp only [hst]

/-- Where validation names an entry and its reason, the completion is the invalid one (R179). -/
theorem complete_of_fault {p : Port} {n : Fin 32} {r : Reason} {s : State}
    (h : validate s.mgmtAddr s.staging.image = some (n, r)) : complete p s = completeInvalid p n r s := by
  have hv : validation s = some (n, r) := h
  simp only [complete, hv]

/-- The invalid completion writes the port's result and the staging unit, and the image stays as it was edited (R181). -/
theorem completeInvalid_eq (p : Port) (n : Fin 32) (r : Reason) (s : State) :
    completeInvalid p n r s =
      (s.setMgmt p { s.mgmt p with result := ⟨0x44#8, .rejected (.entry n r), (s.mgmt p).result.serial⟩ }).setStaging
        ⟨s.staging.image, .owned p, .counting s.now, .rejected n r⟩ := by
  simp [completeInvalid, writeCommitResult, commandCode]

/-- Settles O39: the commit in flight completes, validation sends it to the invalid completion, and that is what the statement writes out. -/
theorem invalidCommitCompletes : Obligations.InvalidCommitCompletes := by
  intro p k r s hr hst hfault
  rw [exec_commitCompletion, execCommitCompletion_committing hr hst, complete_of_fault hfault, completeInvalid_eq]

end Sys2Proof.Machine
end

section
/-! PROOFS. What almost every event keeps, in two relations that compose, with one lemma for each update of State: `Steady`, which a reset and a
valid commit break, and `Moves`, which the target's ACK of an address and the forwarding of a data byte break as well. -/

namespace Sys2Proof.Machine

/-! ## The relations -/

/-- `t` follows `s` by an operation that leaves policy, straps and the keys of the cursor map alone, and keeps each invariant that speaks of one
piece of state. -/
structure Steady (s t : State) : Prop where
  active : t.active = s.active
  generation : t.generation = s.generation
  straps : t.straps = s.straps
  staging : s.stagingWf → t.stagingWf
  log : s.log.wf → t.log.wf
  counts : s.countsWf → t.countsWf
  checks : s.checkWf → t.checkWf
  frames : s.framesWf → t.framesWf
  keys : t.cursors.map (fun r => (r.target, r.width)) = s.cursors.map (fun r => (r.target, r.width))
  indexes : s.indexesWf → t.indexesWf
  configs : s.configsWf → t.configsWf

/-- A steady operation that accepts no access and installs no data byte for a segment. -/
structure Moves (s t : State) : Prop extends Steady s t where
  accepted : ∀ n : Fin 32, t.counters[n].accepted ≤ s.counters[n].accepted
  bytes : ∀ d b, (t.seg d).transfer = some (.dataByte b) → (s.seg d).transfer = some (.dataByte b)

theorem Steady.refl (s : State) : Steady s s := ⟨rfl, rfl, rfl, id, id, id, id, id, rfl, id, id⟩

theorem Steady.trans {s t u : State} (h : Steady s t) (k : Steady t u) : Steady s u where
  active := k.active.trans h.active
  generation := k.generation.trans h.generation
  straps := k.straps.trans h.straps
  staging := k.staging ∘ h.staging
  log := k.log ∘ h.log
  counts := k.counts ∘ h.counts
  checks := k.checks ∘ h.checks
  frames := k.frames ∘ h.frames
  keys := k.keys.trans h.keys
  indexes := k.indexes ∘ h.indexes
  configs := k.configs ∘ h.configs

/-- A segment may change where its waits and its configuration stay in form. -/
theorem Steady.setSeg (s : State) (d : Seg) (g : Segment) (hwait : s.countsWf → ∀ w ∈ g.waiters, w.limit ≤ 50)
    (hconfig : (s.seg d).configWf → g.configWf) : Steady s (s.setSeg d g) where
  active := rfl
  generation := rfl
  straps := rfl
  staging := id
  log := id
  counts := by
    intro h
    have hw := hwait h
    obtain ⟨hn, ha, hb, hs, hr⟩ := h
    refine ⟨hn, ha, hb, fun e => ?_, hr⟩
    by_cases he : e = d
    · subst he; rw [State.setSeg_seg]; exact hw
    · rw [State.setSeg_seg_ne _ _ _ _ he]; exact hs e
  checks := id
  frames := id
  keys := rfl
  indexes := id
  configs := by
    intro h e
    by_cases he : e = d
    · subst he; rw [State.setSeg_seg]; exact hconfig (h e)
    · rw [State.setSeg_seg_ne _ _ _ _ he]; exact h e

theorem Steady.setCounters (s : State) (cs : Vector Counters 32)
    (hwf : (∀ n : Fin 32, s.counters[n].wf) → ∀ n : Fin 32, cs[n].wf) : Steady s (s.setCounters cs) where
  active := rfl
  generation := rfl
  straps := rfl
  staging := id
  log := id
  counts := by
    rintro ⟨hn, hrest⟩
    exact ⟨hwf hn, hrest⟩
  checks := id
  frames := id
  keys := rfl
  indexes := id
  configs := id

namespace Moves

theorem refl (s : State) : Moves s s := ⟨.refl s, fun _ => le_rfl, fun _ _ => id⟩

theorem trans {s t u : State} (h : Moves s t) (k : Moves t u) : Moves s u :=
  ⟨h.toSteady.trans k.toSteady, fun n => (k.accepted n).trans (h.accepted n), fun d b => h.bytes d b ∘ k.bytes d b⟩

/-- A move after another: the later one is written first. -/
theorem comp {s t u : State} (k : Moves t u) (h : Moves s t) : Moves s u := h.trans k

theorem foldl {β : Type} (f : State → β → State) (h : ∀ s x, Moves s (f s x)) (l : List β) (s : State) :
    Moves s (l.foldl f s) := by
  induction l generalizing s with
  | nil => exact .refl s
  | cons x rest ih => exact (h s x).trans (ih _)

/-! ## Updates that no invariant of the relation speaks of -/

theorem setFe (s : State) (p : Port) (f : FrontEnd) : Moves s (s.setFe p f) :=
  ⟨⟨rfl, rfl, rfl, id, id, id, id, id, rfl, id, id⟩, fun _ => le_rfl, fun _ _ => id⟩

theorem setMask (s : State) (k : AttnMask) : Moves s (s.setMask k) :=
  ⟨⟨rfl, rfl, rfl, id, id, id, id, id, rfl, id, id⟩, fun _ => le_rfl, fun _ _ => id⟩

theorem drawFree (s : State) : Moves s s.drawFree :=
  ⟨⟨rfl, rfl, rfl, id, id, id, id, id, rfl, id, id⟩, fun _ => le_rfl, fun _ _ => id⟩

theorem setPending (s : State) (q : List Instr) : Moves s (s.setPending q) :=
  ⟨⟨rfl, rfl, rfl, id, id, id, id, id, rfl, id, id⟩, fun _ => le_rfl, fun _ _ => id⟩

theorem idle (s : State) : Moves s { s with now := s.now + 1 } :=
  ⟨⟨rfl, rfl, rfl, id, id, id, id, id, rfl, id, id⟩, fun _ => le_rfl, fun _ _ => id⟩

/-! ## Updates with a condition on what is written -/

theorem setHoldLimit (s : State) (p : Port) {n : Nat} (h : n ≤ 50) : Moves s (s.setHoldLimit p n) where
  active := rfl
  generation := rfl
  straps := rfl
  staging := id
  log := id
  counts := by
    rintro ⟨hc, ⟨ha, ha'⟩, ⟨hb, hb'⟩, hw, hr⟩
    cases p
    · exact ⟨hc, ⟨h, ha'⟩, ⟨hb, hb'⟩, hw, hr⟩
    · exact ⟨hc, ⟨ha, ha'⟩, ⟨h, hb'⟩, hw, hr⟩
  accepted _ := le_rfl
  checks := id
  frames := id
  keys := rfl
  indexes := id
  configs := id
  bytes _ _ := id

/-- A context may take an access whose data byte count and indexes are in range. -/
theorem setCtx (s : State) (p : Port) (c : Context) (hcount : s.countsWf → ∀ a ∈ c.access, a.count ≤ Config.byteTop)
    (hindex : s.indexesWf → ∀ a ∈ c.access, a.indexWf) : Moves s (s.setCtx p c) where
  active := rfl
  generation := rfl
  straps := rfl
  staging := id
  log := id
  counts := by
    intro h
    have hc := hcount h
    obtain ⟨hn, ⟨ha, ha', ha''⟩, ⟨hb, hb', hb''⟩, hrest⟩ := h
    cases p
    · exact ⟨hn, ⟨ha, ha', hc⟩, ⟨hb, hb', hb''⟩, hrest⟩
    · exact ⟨hn, ⟨ha, ha', ha''⟩, ⟨hb, hb', hc⟩, hrest⟩
  accepted _ := le_rfl
  checks := id
  frames := id
  keys := rfl
  indexes := by
    intro h
    have hc := hindex h
    obtain ⟨hm, ha, hb⟩ := h
    cases p
    · exact ⟨hm, hc, hb⟩
    · exact ⟨hm, ha, hc⟩
  configs := id
  bytes _ _ := id

/-- A management unit may change where its check state and its frame stay in form. -/
theorem setMgmt (s : State) (p : Port) (m : MgmtUnit)
    (hfail : (s.mgmt p).failures ≤ Config.byteTop → m.failures ≤ Config.byteTop) (hcheck : (s.mgmt p).checkWf → m.checkWf)
    (hframe : (∀ f ∈ (s.mgmt p).frame, f.wf s.mgmtAddr) → ∀ f ∈ m.frame, f.wf s.mgmtAddr) : Moves s (s.setMgmt p m) where
  active := rfl
  generation := rfl
  straps := rfl
  staging := id
  log := id
  counts := by
    rintro ⟨hn, ⟨ha, ha', ha''⟩, ⟨hb, hb', hb''⟩, hrest⟩
    cases p
    · exact ⟨hn, ⟨ha, hfail ha', ha''⟩, ⟨hb, hb', hb''⟩, hrest⟩
    · exact ⟨hn, ⟨ha, ha', ha''⟩, ⟨hb, hfail hb', hb''⟩, hrest⟩
  accepted _ := le_rfl
  checks := by
    rintro ⟨ha, hb⟩
    cases p
    · exact ⟨hcheck ha, hb⟩
    · exact ⟨ha, hcheck hb⟩
  frames := by
    rintro ⟨ha, hb⟩
    cases p
    · exact ⟨hframe ha, hb⟩
    · exact ⟨ha, hframe hb⟩
  keys := rfl
  indexes := id
  configs := id
  bytes _ _ := id

/-- A segment may change where its waits, its configuration and its transfer stay in form. -/
theorem setSeg (s : State) (d : Seg) (g : Segment) (hwait : s.countsWf → ∀ w ∈ g.waiters, w.limit ≤ 50)
    (hconfig : (s.seg d).configWf → g.configWf)
    (hbyte : ∀ b, g.transfer = some (.dataByte b) → (s.seg d).transfer = some (.dataByte b)) : Moves s (s.setSeg d g) := by
  refine ⟨.setSeg s d g hwait hconfig, fun _ => le_rfl, fun e b h => ?_⟩
  by_cases he : e = d
  · subst he; rw [State.setSeg_seg] at h; exact hbyte b h
  · rwa [State.setSeg_seg_ne _ _ _ _ he] at h

theorem setLog (s : State) (l : Log) (hlog : s.log.wf → l.wf)
    (hoffset : s.countsWf → ∀ r ∈ l.records, r.report.offset ≤ Config.byteTop) : Moves s (s.setLog l) where
  active := rfl
  generation := rfl
  straps := rfl
  staging := id
  log := hlog
  counts := by
    intro h
    have ho := hoffset h
    obtain ⟨hn, ha, hb, hs, _⟩ := h
    exact ⟨hn, ha, hb, hs, ho⟩
  accepted _ := le_rfl
  checks := id
  frames := id
  keys := rfl
  indexes := id
  configs := id
  bytes _ _ := id

theorem setCounters (s : State) (cs : Vector Counters 32) (hwf : (∀ n : Fin 32, s.counters[n].wf) → ∀ n : Fin 32, cs[n].wf)
    (haccepted : ∀ n : Fin 32, cs[n].accepted ≤ s.counters[n].accepted) : Moves s (s.setCounters cs) :=
  ⟨.setCounters s cs hwf, haccepted, fun _ _ => id⟩

theorem setCursors (s : State) (m : List CursorRec)
    (hkeys : m.map (fun r => (r.target, r.width)) = s.cursors.map (fun r => (r.target, r.width)))
    (hindex : s.indexesWf → ∀ r ∈ m, r.width.allows r.cursor) : Moves s (s.setCursors m) where
  active := rfl
  generation := rfl
  straps := rfl
  staging := id
  log := id
  counts := id
  accepted _ := le_rfl
  checks := id
  frames := id
  keys := hkeys
  indexes := by
    intro h
    have hm := hindex h
    obtain ⟨_, ha, hb⟩ := h
    exact ⟨hm, ha, hb⟩
  configs := id
  bytes _ _ := id

theorem setStaging (s : State) (g : Staging) (h : s.stagingWf → (s.setStaging g).stagingWf) : Moves s (s.setStaging g) where
  active := rfl
  generation := rfl
  straps := rfl
  staging := h
  log := id
  counts := id
  accepted _ := le_rfl
  checks := id
  frames := id
  keys := rfl
  indexes := id
  configs := id
  bytes _ _ := id

end Moves

/-! ## What the invariants say of one access -/

theorem count_of_countsWf {s : State} {p : Port} {a : Access} (h : s.countsWf) (ha : (s.ctx p).access = some a) :
    a.count ≤ Config.byteTop := by
  obtain ⟨_, ⟨_, _, hA⟩, ⟨_, _, hB⟩, _⟩ := h
  cases p
  · exact hA a ha
  · exact hB a ha

theorem indexWf_of_indexesWf {s : State} {p : Port} {a : Access} (h : s.indexesWf) (ha : (s.ctx p).access = some a) :
    a.indexWf := by
  obtain ⟨_, hA, hB⟩ := h
  cases p
  · exact hA a ha
  · exact hB a ha

theorem holdLimit_of_countsWf {s : State} (h : s.countsWf) (p : Port) : s.holdLimit p ≤ 50 := by
  obtain ⟨_, ⟨hA, _⟩, ⟨hB, _⟩, _⟩ := h
  cases p
  · exact hA
  · exact hB

theorem waiters_of_countsWf {s : State} (h : s.countsWf) (d : Seg) : ∀ w ∈ (s.seg d).waiters, w.limit ≤ 50 := by
  obtain ⟨_, _, _, hw, _⟩ := h
  exact hw d

theorem offsets_of_countsWf {s : State} (h : s.countsWf) : ∀ r ∈ s.log.records, r.report.offset ≤ Config.byteTop := by
  obtain ⟨_, _, _, _, hr⟩ := h
  exact hr

/-- An absent index is in the range of every width. -/
theorem IndexWidth.allows_none (w : IndexWidth) : w.allows none := fun _ => by simp

/-! ## Two frequent shapes of a context update -/

/-- A context that keeps its access record, or has none. -/
theorem Moves.setCtx_keep (s : State) (p : Port) (c : Context) (h : ∀ a ∈ c.access, (s.ctx p).access = some a) :
    Moves s (s.setCtx p c) :=
  .setCtx s p c (fun hs a ha => count_of_countsWf hs (h a ha)) (fun hs a ha => indexWf_of_indexesWf hs (h a ha))

/-- A context whose access changes in what it holds, its cursor and its mark only. -/
theorem Moves.setCtx_access {s : State} {p : Port} {c : Context} {a b : Access} (hc : c.access = some b)
    (ha : (s.ctx p).access = some a) (hcount : b.count = a.count) (hcopy : b.copy = a.copy) (hbytes : b.indexBytes = a.indexBytes)
    (hvalue : b.indexValue = a.indexValue) (hcursor : s.indexesWf → a.copy.width.allows b.cursor) : Moves s (s.setCtx p c) := by
  refine .setCtx s p c (fun hs x hx => ?_) (fun hs x hx => ?_)
  · obtain rfl : b = x := by rw [hc] at hx; exact Option.some.inj hx
    rw [hcount]; exact count_of_countsWf hs ha
  · obtain rfl : b = x := by rw [hc] at hx; exact Option.some.inj hx
    rw [Access.indexWf, hcopy, hbytes, hvalue]
    exact ⟨hcursor hs, (indexWf_of_indexesWf hs ha).2⟩

end Sys2Proof.Machine
end

section
/-! PROOFS. Every shared operation of traffic is a move: front ends, records and claims, hand-backs, closes, and the arbiter's answers. -/

namespace Sys2Proof.Machine

/-! ## Front ends and states of contexts -/

theorem sclSeen_moves (p : Port) (s : State) : Moves s (sclSeen p s) := .setFe ..
theorem answer_moves (p : Port) (a : Ack) (s : State) : Moves s (answer p a s) := .setFe ..
theorem holdClock_moves (p : Port) (s : State) : Moves s (holdClock p s) := .setFe ..
theorem deliver_moves (p : Port) (b : Byte) (s : State) : Moves s (deliver p b s) := .setFe ..
theorem releaseLines_moves (p : Port) (s : State) : Moves s (releaseLines p s) := .setFe ..
theorem setRole_moves (p : Port) (dir : Dir) (s : State) : Moves s (setRole p dir s) := .setFe ..
theorem startCondition_moves (p : Port) (s : State) : Moves s (startCondition p s) := .setFe ..
theorem stopCondition_moves (p : Port) (s : State) : Moves s (stopCondition p s) := .setFe ..
theorem resetFrontEnd_moves (p : Port) (s : State) : Moves s (resetFrontEnd p s) := .setFe ..

theorem setState_moves (p : Port) (c : CtxState) (s : State) : Moves s (setState p c s) :=
  .setCtx_keep _ _ _ fun _ ha => ha

/-- A context that is left without an access record. -/
theorem Moves.setCtx_none (s : State) (p : Port) (st : CtxState) (r : Option Seg) : Moves s (s.setCtx p ⟨st, none, r⟩) :=
  .setCtx_keep _ _ _ fun _ ha => nomatch ha

theorem toIdle_moves (p : Port) (s : State) : Moves s (toIdle p s) := .setCtx_none ..

/-! ## Records and claims -/

theorem hand_moves (r : Report) (s : State) (h : s.countsWf → r.offset ≤ Config.byteTop) : Moves s (hand r s) := by
  refine .setLog _ _ (Log.take_wf r) fun hs v hv => ?_
  have hold := offsets_of_countsWf hs
  rcases Log.take_spec r s.log with ⟨_, hr, _⟩ | ⟨_, hr, _⟩
  · rw [hr, List.mem_append, List.mem_singleton] at hv
    rcases hv with hv | rfl
    · exact hold v hv
    · exact h hs
  · rw [hr] at hv
    exact hold v hv

theorem hand_foldl_moves (rs : List Report) (s : State) (h : ∀ r ∈ rs, r.offset ≤ Config.byteTop) :
    Moves s (rs.foldl (fun t r => hand r t) s) := by
  induction rs generalizing s with
  | nil => exact .refl s
  | cons r rest ih => exact (hand_moves r s fun _ => h r (by simp)).trans (ih _ fun x hx => h x (by simp [hx]))

theorem handTogether_moves (rs : List Report) (s : State) (h : ∀ r ∈ rs, r.offset ≤ Config.byteTop) :
    Moves s (handTogether rs s) := by
  unfold handTogether
  split
  · exact .refl s
  · exact hand_moves _ _ fun _ => h _ (by simp)
  · refine (hand_foldl_moves _ s fun r hr => h r ?_).trans (.drawFree _)
    exact (arrange_perm _ _ _).mem_iff.mp hr

theorem record_moves (p : Port) (k : Kind) (i : Option Word16) (o : Nat) (s : State) (h : s.countsWf → o ≤ Config.byteTop) :
    Moves s (record p k i o s) := by
  rcases record_spec p k i o s with e | ⟨a, _, e⟩
  · rw [e]; exact .refl s
  · rw [e]; exact hand_moves (accessReport s p a k i o) s h

theorem countEntry_counters (n k : Fin 32) (f : Counters → Counters) (s : State) :
    (countEntry n f s).counters[k] = if n = k then f s.counters[n] else s.counters[k] := by
  simp [countEntry, Vector.getElem_set, Fin.ext_iff]

theorem countEntry_steady (n : Fin 32) (f : Counters → Counters) (s : State) (hwf : ∀ c : Counters, c.wf → (f c).wf) :
    Steady s (countEntry n f s) := by
  refine .setCounters _ _ fun h k => ?_
  have hk := countEntry_counters n k f s
  rw [countEntry, State.setCounters_counters] at hk
  rw [hk]
  split
  · exact hwf _ (h n)
  · exact h k

/-- The counters of one entry change, the accepted one not upwards. -/
theorem countEntry_moves (n : Fin 32) (f : Counters → Counters) (s : State) (hwf : ∀ c : Counters, c.wf → (f c).wf)
    (hacc : ∀ c : Counters, (f c).accepted ≤ c.accepted) : Moves s (countEntry n f s) := by
  refine ⟨countEntry_steady n f s hwf, fun k => ?_, fun _ _ => id⟩
  rw [countEntry_counters]
  split
  case isTrue h => rw [← h]; exact hacc _
  case isFalse => exact le_rfl

theorem claimDenied_moves (p : Port) (s : State) : Moves s (claimDenied p s) := by
  rcases claimDenied_spec p s with e | ⟨a, _, _, e⟩
  · rw [e]; exact .refl s
  · rw [e]; exact countEntry_moves _ _ _ (fun _ => Counters.deny_wf) fun _ => le_rfl

theorem penalize_moves (p : Port) (k : Kind) (i : Option Word16) (o : Nat) (s : State) (h : s.countsWf → o ≤ Config.byteTop) :
    Moves s (penalize p k i o s) :=
  (record_moves p k i o s h).trans (claimDenied_moves ..)

theorem refuseSilently_moves (p : Port) (s : State) : Moves s (refuseSilently p s) :=
  ((claimDenied_moves ..).trans (answer_moves ..)).trans (setState_moves ..)

theorem refuse_moves (p : Port) (k : Kind) (i : Option Word16) (o : Nat) (s : State) (h : s.countsWf → o ≤ Config.byteTop) :
    Moves s (refuse p k i o s) :=
  (record_moves p k i o s h).trans (refuseSilently_moves ..)

/-- A refusal of an address has offset 0. -/
theorem refuse_zero_moves (p : Port) (k : Kind) (i : Option Word16) (s : State) : Moves s (refuse p k i 0 s) :=
  refuse_moves p k i 0 s fun _ => Nat.zero_le _

/-! ## Cursors -/

/-- Storing a cursor keeps the keys and the widths of the map. -/
theorem storeCursor_keys (t : Target) (w : IndexWidth) (v : Option Word16) (m : List CursorRec) :
    (storeCursor t w v m).map (fun r => (r.target, r.width)) = m.map (fun r => (r.target, r.width)) := by
  unfold storeCursor
  rw [List.map_map]
  refine List.map_congr_left fun r _ => ?_
  simp only [Function.comp]
  split <;> rfl

/-- Clearing cursors keeps the keys and the widths of the map. -/
theorem clearCursors_keys (f : Target → Bool) (m : List CursorRec) :
    (clearCursors f m).map (fun r => (r.target, r.width)) = m.map (fun r => (r.target, r.width)) := by
  unfold clearCursors
  rw [List.map_map]
  refine List.map_congr_left fun r _ => ?_
  simp only [Function.comp]
  split <;> rfl

theorem storeCursor_allows {t : Target} {w : IndexWidth} {v : Option Word16} {m : List CursorRec}
    (h : ∀ r ∈ m, r.width.allows r.cursor) (hv : w.allows v) : ∀ r ∈ storeCursor t w v m, r.width.allows r.cursor := by
  intro r hr
  obtain ⟨x, hx, rfl⟩ := List.mem_map.mp hr
  split
  case isTrue hw => rw [← hw.2] at hv; exact hv
  case isFalse => exact h x hx

theorem clearCursors_allows (f : Target → Bool) {m : List CursorRec} (h : ∀ r ∈ m, r.width.allows r.cursor) :
    ∀ r ∈ clearCursors f m, r.width.allows r.cursor := by
  intro r hr
  obtain ⟨x, hx, rfl⟩ := List.mem_map.mp hr
  split
  · exact IndexWidth.allows_none _
  · exact h x hx

theorem clearCursors_moves (f : Target → Bool) (s : State) : Moves s (s.setCursors (clearCursors f s.cursors)) :=
  .setCursors _ _ (clearCursors_keys ..) fun h => clearCursors_allows f h.1

/-- A loaded cursor is in the range of the copy's width (R73). -/
theorem loadCursor_allows {m : List CursorRec} {e : Entry} (h : ∀ r ∈ m, r.width.allows r.cursor) :
    e.width.allows (loadCursor m e) := by
  unfold loadCursor
  split
  · exact IndexWidth.allows_none _
  · split
    · rename_i r hr
      split
      case isTrue hw =>
        rw [← hw]
        exact h r (List.mem_of_find?_eq_some hr)
      case isFalse => exact IndexWidth.allows_none _
    · exact IndexWidth.allows_none _

theorem handBack_moves (a : Access) (v : Option Word16) (s : State) (h : s.indexesWf → a.copy.width.allows v) :
    Moves s (handBack a v s) := by
  rcases handBack_spec a v s with e | ⟨_, e⟩
  · rw [e]; exact .refl s
  · rw [e]; exact .setCursors _ _ (storeCursor_keys ..) fun hs => storeCursor_allows hs.1 (h hs)

/-! ## Closes -/

/-- A segment whose waits and configuration stay, and whose transfer is a former one or carries no data byte. -/
theorem Moves.setSeg_keep (s : State) (d : Seg) (g : Segment) (hwait : g.waiters = (s.seg d).waiters)
    (hconfig : (s.seg d).configWf → g.configWf)
    (hbyte : ∀ b, g.transfer = some (.dataByte b) → (s.seg d).transfer = some (.dataByte b)) : Moves s (s.setSeg d g) :=
  .setSeg _ _ _ (fun h => by rw [hwait]; exact waiters_of_countsWf h d) hconfig hbyte

theorem closeRequest_moves (d : Seg) (tail : Option Transfer) (s : State) (h : ∀ b, tail ≠ some (.dataByte b)) :
    Moves s (closeRequest d tail s) := by
  refine .setSeg_keep _ _ _ rfl id fun b hb => ?_
  dsimp only at hb
  cases hx : (s.seg d).transfer with
  | none => rw [hx] at hb; exact absurd hb (h b)
  | some x => rw [hx] at hb; exact hb

theorem handBack_setCtx (a : Access) (v : Option Word16) (s : State) (p : Port) (c : Context) :
    (handBack a v s).setCtx p c = handBack a v (s.setCtx p c) := by
  unfold handBack
  split
  · rfl
  · split <;> rfl

@[simp] theorem handBack_ctx (a : Access) (v : Option Word16) (s : State) (p : Port) : (handBack a v s).ctx p = s.ctx p := by
  rcases handBack_spec a v s with e | ⟨_, e⟩ <;> rw [e]
  rfl

theorem giveUp_moves (p : Port) (v : Option Word16) (s : State)
    (h : s.indexesWf → ∀ a ∈ (s.ctx p).access, a.copy.width.allows v) : Moves s (giveUp p v s) := by
  unfold giveUp
  split
  · exact .refl s
  · rename_i a ha
    rw [handBack_setCtx]
    refine (handBack_moves _ _ _ fun hs => ?_).comp
      (.setCtx_access (b := { a with held := none, cursor := v }) rfl ha rfl rfl rfl rfl fun hs => h hs a ha)
    exact (indexWf_of_indexesWf (p := p) (a := { a with held := none, cursor := v }) hs (by simp)).1

/-- What a context hands back as it stands is in range. -/
theorem cursor_allows {s : State} {p : Port} {a : Access} (ha : (s.ctx p).access = some a) (hs : s.indexesWf) :
    ∀ b ∈ (s.ctx p).access, b.copy.width.allows a.cursor := by
  intro b hb
  obtain rfl : a = b := by rw [ha] at hb; exact Option.some.inj hb
  exact (indexWf_of_indexesWf hs ha).1

theorem letGo_moves (p : Port) (v : Option Word16) (tail : Option Transfer) (s : State)
    (h : s.indexesWf → ∀ a ∈ (s.ctx p).access, a.copy.width.allows v) (ht : ∀ b, tail ≠ some (.dataByte b)) :
    Moves s (letGo p v tail s) := by
  unfold letGo
  split
  · exact .refl s
  · split
    · exact .refl s
    · exact (giveUp_moves p v s h).trans (closeRequest_moves _ _ _ ht)

theorem dropRetained_moves (p : Port) (s : State) : Moves s (dropRetained p s) := by
  unfold dropRetained
  split
  · exact .refl s
  · exact (closeRequest_moves _ none s fun _ h => nomatch h).trans (.setCtx_keep _ _ _ fun _ ha => ha)

theorem awaitRelease_moves (p : Port) (d : Seg) (o : AddressOutcome) (s : State) : Moves s (awaitRelease p d o s) :=
  have hclose : Moves s (closeRequest d none s) := closeRequest_moves _ _ _ fun _ h => nomatch h
  have hdrop : Moves s ((closeRequest d none s).setCtx p { s.ctx p with retained := none }) :=
    hclose.trans (.setCtx_keep _ _ _ fun _ ha => ha)
  hdrop.trans (.setSeg_keep _ _ _ rfl id fun _ => id)

/-! ## Grants and requests -/

theorem beginOpening_moves (d : Seg) (sda : Line) (a : Access) (s : State) : Moves s (beginOpening d sda a s) := by
  unfold beginOpening
  dsimp only
  split
  · exact .setSeg_keep _ _ _ rfl id fun _ => id
  · cases sda <;> exact .setSeg_keep _ _ _ rfl id fun _ hb => by simp [openingTransfer] at hb

/-- A context that begins to hold a segment with the cursor loaded from the map. -/
theorem beginHold_moves {p : Port} {a : Access} {s : State} (d : Seg) (ha : (s.ctx p).access = some a) :
    Moves s (beginHold p d (loadCursor s.cursors a.copy) a s) :=
  .setCtx_access rfl ha rfl rfl rfl rfl fun hs => loadCursor_allows hs.1

theorem grant_moves (p : Port) (d : Seg) (sda : Line) (s : State) : Moves s (grant p d sda s) := by
  unfold grant
  split
  · exact .refl s
  · rename_i a ha
    dsimp only
    split
    · have hheld : Moves s (s.setSeg d { s.seg d with
          state := .held, holder := some p, bus := .idle, transfer := none, openAfter := false }) :=
        .setSeg_keep _ _ _ rfl (fun _ => ⟨fun _ => .inl rfl, by simp⟩) fun _ h => nomatch h
      exact ((hheld.trans (beginHold_moves d ha)).trans (setState_moves ..)).trans (beginOpening_moves ..)
    · refine ((beginHold_moves d ha).trans (refuse_zero_moves ..)).trans (giveUp_moves _ _ _ fun hs => ?_)
      exact cursor_allows (a := { a with held := some d, cursor := loadCursor s.cursors a.copy })
        (by rw [refuse_ctx]; simp [beginHold]) hs

theorem keepSegment_moves (p : Port) (d : Seg) (sda : Line) (s : State) : Moves s (keepSegment p d sda s) := by
  unfold keepSegment
  split
  · exact .refl s
  · rename_i a ha
    dsimp only
    split
    · exact ((beginHold_moves d ha).trans (setState_moves ..)).trans (beginOpening_moves ..)
    · refine ((beginHold_moves d ha).trans (giveUp_moves _ _ _ fun hs => ?_)).trans (awaitRelease_moves ..)
      exact cursor_allows (a := { a with held := some d, cursor := loadCursor s.cursors a.copy }) (by simp [beginHold]) hs

theorem waitOrBusy_moves (p : Port) (d : Seg) (s : State) : Moves s (waitOrBusy p d s) := by
  unfold waitOrBusy
  split
  · exact refuse_zero_moves ..
  · refine (setState_moves ..).comp (.setSeg _ _ _ (fun hs w hw => ?_) id fun _ => id)
    rcases List.mem_append.mp hw with hw | hw
    · exact waiters_of_countsWf hs d w hw
    · rw [List.mem_singleton.mp hw]
      exact holdLimit_of_countsWf hs p

theorem request_moves (p : Port) (d : Seg) (sda : Line) (s : State) : Moves s (request p d sda s) := by
  unfold request
  dsimp only
  split
  · exact refuse_zero_moves ..
  · exact refuse_zero_moves ..
  · split
    · exact waitOrBusy_moves ..
    · exact grant_moves ..
  · exact waitOrBusy_moves ..
  · split
    · exact .setSeg_keep _ _ _ rfl id fun _ => id
    · exact waitOrBusy_moves ..

theorem dropWaiter_moves (d : Seg) (p : Port) (s : State) : Moves s (dropWaiter d p s) :=
  .setSeg _ _ _ (fun hs w hw => waiters_of_countsWf hs d w (List.mem_of_mem_filter hw))
    (fun h => ⟨h.1, h.2⟩) fun _ => id

theorem answerWaiter_moves (d : Seg) (sda : Line) (s : State) (w : Waiter) : Moves s (answerWaiter d sda s w) := by
  unfold answerWaiter
  dsimp only
  split
  · exact (dropWaiter_moves ..).trans (grant_moves ..)
  · exact .refl s

theorem answerWaiters_moves (d : Seg) (sda : Line) (s : State) : Moves s (answerWaiters d sda s) :=
  .foldl _ (answerWaiter_moves d sda) _ s

theorem takeUpRequests_moves (d : Seg) (sda : Line) (s : State) : Moves s (takeUpRequests d sda s) :=
  (Moves.foldl _ (fun t p => request_moves p d sda t) _ _).comp (.setSeg_keep _ _ _ rfl id fun _ => id)

/-! ## Leaving HELD and RECOVERING -/

theorem downRecords_offset (ps : List Port) (s : State) : ∀ r ∈ downRecords ps s, r.offset = 0 := by
  intro r hr
  obtain ⟨p, _, hp⟩ := List.mem_filterMap.mp hr
  obtain ⟨a, _, rfl⟩ := Option.map_eq_some_iff.mp hp
  rfl

theorem refuseDown_moves (ps : List Port) (extra : List Report) (s : State) (h : ∀ r ∈ extra, r.offset = 0) :
    Moves s (refuseDown ps extra s) := by
  refine (handTogether_moves _ _ fun r hr => ?_).comp (.foldl _ (fun t p => refuseSilently_moves p t) _ _)
  have hzero : r.offset = 0 := by
    rcases List.mem_append.mp hr with hr | hr
    · exact downRecords_offset _ _ r hr
    · exact h r hr
  rw [hzero]
  exact Nat.zero_le _

/-- A segment that has no pending configuration and, where it is DISABLED or in FAULT, no lease. -/
theorem Segment.configWf_of_none {g : Segment} (hp : g.pendingConfig = none)
    (hl : g.state = .disabled ∨ g.state = .fault → g.lease = none) : g.configWf :=
  ⟨fun h => absurd h (by simp [hp]), hl⟩

theorem leaveInOrder_moves (d : Seg) (sda : Line) (s : State) : Moves s (leaveInOrder d sda s) := by
  unfold leaveInOrder
  dsimp only
  split
  · exact (refuseDown_moves _ _ _ (by simp)).comp
      (.setSeg _ _ _ (fun _ => by simp) (fun _ => Segment.configWf_of_none rfl fun _ => rfl) fun _ h => nomatch h)
  · exact ((takeUpRequests_moves ..).comp (answerWaiters_moves ..)).comp
      (.setSeg_keep _ _ _ rfl (fun _ => Segment.configWf_of_none rfl (by simp)) fun _ h => nomatch h)

theorem leaveInFault_moves (d : Seg) (stuck : List Report) (s : State) (h : ∀ r ∈ stuck, r.offset = 0) :
    Moves s (leaveInFault d stuck s) :=
  (refuseDown_moves _ _ _ h).comp
    (.setSeg _ _ _ (fun _ => by simp) (fun _ => Segment.configWf_of_none rfl fun _ => rfl) fun _ h => nomatch h)

/-- A recovery of a segment that belongs to no access fails. -/
theorem leaveInFault_segmentReport_moves (d : Seg) (s : State) : Moves s (leaveInFault d [segmentReport s d] s) :=
  leaveInFault_moves _ _ _ (by simp [segmentReport])

theorem enterStalled_moves (d : Seg) (s : State) : Moves s (enterStalled d s) :=
  (takeUpRequests_moves ..).comp (.setSeg_keep _ _ _ rfl (fun _ => ⟨fun _ => .inr rfl, by simp⟩) fun _ h => nomatch h)

theorem openingFails_moves (p : Port) (d : Seg) (s : State) : Moves s (openingFails p d s) := by
  unfold openingFails
  split
  · exact leaveInFault_segmentReport_moves ..
  · exact ((leaveInFault_moves _ _ _ (by simp [accessReport])).comp
      (giveUp_moves _ _ _ fun _ _ _ => IndexWidth.allows_none _)).comp (refuseSilently_moves ..)

theorem openingStuck_moves (d : Seg) (s : State) : Moves s (openingStuck d s) := by
  unfold openingStuck
  split
  · exact openingFails_moves ..
  · exact leaveInFault_segmentReport_moves ..

theorem openingClears_moves (d : Seg) (sda : Line) (s : State) : Moves s (openingClears d sda s) := by
  unfold openingClears
  dsimp only
  split
  · exact .setSeg_keep _ _ _ rfl id fun _ hb => by simp [openingTransfer] at hb
  · exact leaveInOrder_moves ..

/-! ## Configuration and leases -/

/-- Outside HELD and RECOVERING no configuration is pending. -/
theorem Segment.pendingConfig_of_configWf {g : Segment} (h : g.configWf) (hheld : g.state ≠ .held)
    (hrec : g.state ≠ .recovering) : g.pendingConfig = none := by
  by_contra hp
  rcases h.1 (Option.isSome_iff_ne_none.mpr hp) with h | h
  · exact hheld h
  · exact hrec h

theorem configure_moves (d : Seg) (c : SegConfig) (s : State) : Moves s (configure d c s) := by
  have hpend : ∀ g : Segment, g.configWf → g.state = .held ∨ g.state = .recovering →
      ({ g with pendingConfig := some c } : Segment).configWf := fun g h hst => ⟨fun _ => hst, h.2⟩
  have hstart : Moves s (s.setSeg d ({ s.seg d with config := c }.recover)) :=
    .setSeg_keep _ _ _ rfl (fun _ => ⟨fun _ => .inr rfl, by simp [Segment.recover]⟩) fun _ h => nomatch h
  have hoff : (s.seg d).state ≠ .held → (s.seg d).state ≠ .recovering → Moves s (refuseDown (s.seg d).waiting []
      (s.setSeg d { s.seg d with config := c, state := .disabled, lease := none, waiters := [] })) := fun h1 h2 =>
    (refuseDown_moves _ _ _ (by simp)).comp (.setSeg _ _ _ (fun _ => by simp)
      (fun h => Segment.configWf_of_none (Segment.pendingConfig_of_configWf (g := s.seg d) h h1 h2) fun _ => rfl) fun _ => id)
  unfold configure
  dsimp only
  split
  case h_1 hst => exact .setSeg_keep _ _ _ rfl (fun h => hpend _ h (.inl hst)) fun _ => id
  case h_2 hst => exact .setSeg_keep _ _ _ rfl (fun h => hpend _ h (.inr hst)) fun _ => id
  case h_3 hst =>
    split
    · exact .setSeg_keep _ _ _ rfl id fun _ => id
    · exact hoff (by simp [hst]) (by simp [hst])
  case h_4 hst =>
    split
    · exact hstart
    · exact .setSeg_keep _ _ _ rfl id fun _ => id
  case h_5 hst =>
    split
    · exact hstart
    · exact hoff (by simp [hst]) (by simp [hst])

theorem endLease_moves (d : Seg) (sda : Line) (s : State) : Moves s (endLease d sda s) := by
  have hlease : Moves s (s.setSeg d { s.seg d with lease := none }) :=
    .setSeg_keep _ _ _ rfl (fun h => ⟨h.1, fun _ => rfl⟩) fun _ => id
  unfold endLease
  dsimp only
  split
  · exact hlease.trans (answerWaiters_moves ..)
  · exact hlease

end Sys2Proof.Machine
end

section
/-! PROOFS. Every management command, and the bytes and the end of every management frame, is a move. -/

namespace Sys2Proof.Machine

/-! ## Management units -/

/-- A management unit that keeps its check state and its frame. -/
theorem Moves.setMgmt_keep (s : State) (p : Port) (m : MgmtUnit) (hfirst : m.firstError = (s.mgmt p).firstError)
    (hfail : m.failures = (s.mgmt p).failures) (hguard : m.guard = (s.mgmt p).guard)
    (hframe : ∀ f ∈ m.frame, f ∈ (s.mgmt p).frame) : Moves s (s.setMgmt p m) := by
  refine .setMgmt s p m (fun h => by rw [hfail]; exact h) (fun h => ?_) fun h f hf => h f (hframe f hf)
  rw [MgmtUnit.checkWf, hfirst, hfail, hguard]
  exact h

theorem writeResult_moves (p : Port) (code : Byte) (r : Result) (s : State) : Moves s (writeResult p code r s) :=
  .setMgmt_keep _ _ _ rfl rfl rfl fun _ hf => hf

theorem writeCommitResult_moves (p : Port) (r : Result) (s : State) : Moves s (writeCommitResult p r s) :=
  .setMgmt_keep _ _ _ rfl rfl rfl fun _ hf => hf

theorem setReading_moves (p : Port) (r : Option ReadPosition) (s : State) : Moves s (setReading p r s) :=
  .setMgmt_keep _ _ _ rfl rfl rfl fun _ hf => hf

theorem setViewCursor_moves (p : Port) (n : Nat) (s : State) : Moves s (setViewCursor p n s) :=
  .setMgmt_keep _ _ _ rfl rfl rfl fun _ hf => hf

theorem clearCheck_moves (p : Port) (s : State) : Moves s (clearCheck p s) :=
  .setMgmt _ _ _ (fun _ => Nat.zero_le _) (fun _ => by simp [MgmtUnit.checkWf]) id

/-- A frame that is in form for the part's management address, whatever the one before was. -/
theorem setFrame_moves (p : Port) (f : Option Frame) (s : State)
    (h : (∀ f ∈ (s.mgmt p).frame, f.wf s.mgmtAddr) → ∀ g ∈ f, g.wf s.mgmtAddr) : Moves s (setFrame p f s) :=
  .setMgmt _ _ _ id id h

theorem setFrame_none_moves (p : Port) (s : State) : Moves s (setFrame p none s) :=
  setFrame_moves p none s fun _ _ h => nomatch h

theorem checkFailure_moves (p : Port) (e : FirstError) (s : State) : Moves s (checkFailure p e s) := by
  refine .setMgmt _ _ _ (fun _ => satInc_le ..) (fun h => ?_) id
  have := checkFailure_checkWf p e h
  rwa [checkFailure, State.setMgmt_mgmt] at this

/-! ## The staging unit -/

theorem goodCheckNotice_moves (p : Port) (s : State) : Moves s (goodCheckNotice p s) := by
  unfold goodCheckNotice
  split
  case isTrue hst =>
    refine .setStaging _ _ fun h => ⟨fun hf => ?_, fun q hq => by simp, fun q hq => ?_⟩
    · simp [hst] at hf
    · simp [hst] at hq
  case isFalse => exact .refl s

/-- A FREE unit whose image is the active table. -/
theorem freeStaging_moves (s : State) : Moves s (freeStaging s) :=
  .setStaging _ _ fun _ => ⟨fun _ => ⟨rfl, rfl⟩, fun _ h => (by cases h), fun _ h => (by cases h)⟩

/-- An edit in FREE or OWNED leaves the unit OWNED with its timer counting. -/
theorem stage_moves (p : Port) (n : Fin 32) (mask : Word16) (i : EntryImage) (s : State)
    (h : s.staging.state = .free ∨ ∃ q, s.staging.state = .owned q) : Moves s (stage p n mask i s) := by
  refine .setStaging _ _ fun hs => ⟨fun hf => (by cases hf), fun q _ => ?_, fun _ hc => (by cases hc)⟩
  rcases h with h | ⟨q, h⟩
  · simp [h]
  · simpa [h] using hs.2.1 q h

theorem softResetStaging_moves (p : Port) (s : State) : Moves s (softResetStaging p s) := by
  unfold softResetStaging
  split
  · exact .refl s
  · exact freeStaging_moves s
  · dsimp only
    have hfree : Moves s (freeStaging (s.setStaging { s.staging with outcome := .abandoned })) :=
      (freeStaging_moves _).comp (.setStaging _ _ id)
    split
    · exact hfree
    · exact hfree.trans (writeCommitResult_moves ..)

/-- An invalid completion returns the ownership with the timer counting. -/
theorem completeInvalid_moves (p : Port) (n : Fin 32) (r : Reason) (s : State) : Moves s (completeInvalid p n r s) :=
  (writeCommitResult_moves ..).comp
    (.setStaging _ _ fun _ => ⟨fun h => (by cases h), fun _ _ => by simp, fun _ h => (by cases h)⟩)

/-! ## Contexts and segments under commands -/

theorem detachWhere_access {f : Access → Bool} {c : Context} {b : Access} (h : (detachWhere f c).access = some b) :
    ∃ a, c.access = some a ∧ b.count = a.count ∧ b.copy = a.copy ∧ b.indexBytes = a.indexBytes ∧
      b.indexValue = a.indexValue ∧ b.cursor = a.cursor := by
  obtain ⟨a, ha, rfl⟩ := Option.map_eq_some_iff.mp h
  refine ⟨a, ha, ?_⟩
  split <;> exact ⟨rfl, rfl, rfl, rfl, rfl⟩

theorem setCtx_detachWhere_moves (f : Access → Bool) (p : Port) (s : State) :
    Moves s (s.setCtx p (detachWhere f (s.ctx p))) := by
  cases hb : (detachWhere f (s.ctx p)).access with
  | none => exact .setCtx_keep _ _ _ fun a ha => by rw [hb] at ha; exact nomatch ha
  | some b =>
    obtain ⟨a, ha, hcount, hcopy, hbytes, hvalue, hcursor⟩ := detachWhere_access hb
    exact .setCtx_access hb ha hcount hcopy hbytes hvalue fun hs => by rw [hcursor]; exact (indexWf_of_indexesWf hs ha).1

theorem detachContexts_moves (f : Access → Bool) (s : State) : Moves s (detachContexts f s) :=
  (setCtx_detachWhere_moves f .B (s.setCtx .A (detachWhere f (s.ctx .A)))).comp (setCtx_detachWhere_moves f .A s)

/-- A context whose access was aborted, its cursor as it was. -/
theorem setCtx_aborted_moves (p : Port) (st : CtxState) (s : State) : Moves s (s.setCtx p ((s.ctx p).aborted st)) := by
  cases ha : (s.ctx p).access with
  | none => exact .setCtx_keep _ _ _ fun a h => by simp [Context.aborted, ha] at h
  | some a =>
    exact .setCtx_access (b := { a with detached := true, held := none }) (by simp [Context.aborted, ha]) ha rfl rfl rfl rfl
      fun hs => (indexWf_of_indexesWf hs ha).1

theorem closeHeld_moves (q : Port) (tail : Option Transfer) (s : State) (h : ∀ b, tail ≠ some (.dataByte b)) :
    Moves s (closeHeld q tail s) := by
  unfold closeHeld
  split
  · exact .refl s
  · exact closeRequest_moves _ _ _ h

@[simp] theorem closeHeld_ctx (q : Port) (tail : Option Transfer) (s : State) (r : Port) :
    (closeHeld q tail s).ctx r = s.ctx r := by
  unfold closeHeld
  split <;> rfl

/-- SOFT RESET's close, front end and abort of one port, in that order. -/
theorem abort_moves (q : Port) (st : CtxState) (tail : Option Transfer) (front : State → State) (s : State)
    (h : ∀ b, tail ≠ some (.dataByte b)) (hf : ∀ t, Moves t (front t)) (hc : ∀ t, (front t).ctx q = t.ctx q) :
    Moves s ((front (closeHeld q tail s)).setCtx q ((s.ctx q).aborted st)) := by
  have hctx : (front (closeHeld q tail s)).ctx q = s.ctx q := by rw [hc, closeHeld_ctx]
  rw [← hctx]
  exact ((closeHeld_moves q tail s h).trans (hf _)).trans (setCtx_aborted_moves ..)

theorem abortAddress_moves (q : Port) (s : State) : Moves s (abortAddress q s) :=
  abort_moves q .refusing none (answer q .nak) s (fun _ h => nomatch h) (answer_moves q .nak) fun _ => rfl

theorem abortWrite_moves (q : Port) (s : State) : Moves s (abortWrite q s) := by
  unfold abortWrite
  dsimp only
  split
  · exact (closeHeld_moves q none s fun _ h => nomatch h).trans (toIdle_moves ..)
  · split
    · exact abort_moves q .refusing none (answer q .nak) s (fun _ h => nomatch h) (answer_moves q .nak) fun _ => rfl
    · exact abort_moves q .refusing none (releaseLines q) s (fun _ h => nomatch h) (releaseLines_moves q) fun _ => rfl

theorem abortRead_moves (q : Port) (s : State) : Moves s (abortRead q s) := by
  unfold abortRead
  split
  · exact abort_moves q .filler (some .nak) id s (fun _ h => by cases h) .refl fun _ => rfl
  · exact abort_moves q .filler none (deliver q 0xFF#8) s (fun _ h => nomatch h) (deliver_moves q _) fun _ => rfl

theorem abortReadEnd_moves (q : Port) (s : State) : Moves s (abortReadEnd q s) := by
  unfold abortReadEnd
  dsimp only
  split
  · exact (closeHeld_moves q none s fun _ h => nomatch h).trans (toIdle_moves ..)
  · exact abort_moves q .refusing none id s (fun _ h => nomatch h) .refl fun _ => rfl

theorem abortMatch_moves (q : Port) (s : State) : Moves s (abortMatch q s) := by
  unfold abortMatch
  split
  · exact .refl s
  · exact abortAddress_moves ..

theorem unstoreRead_moves (q : Port) (s : State) : Moves s (unstoreRead q s) :=
  .setMgmt_keep _ _ _ rfl rfl rfl fun _ hf => hf

theorem abortContext_moves (q : Port) (s : State) : Moves s (abortContext q s) := by
  unfold abortContext
  cases (s.ctx q).state with
  | idle | unaddressed | filler | refusing | mgmtWrite => exact .refl s
  | matching => exact abortMatch_moves ..
  | waiting | opening => exact abortAddress_moves ..
  | writeIndex | writeData => exact abortWrite_moves ..
  | readData => exact abortRead_moves ..
  | readEnd => exact abortReadEnd_moves ..
  | mgmtRead => exact unstoreRead_moves ..

theorem resetArbiter_moves (s : State) (d : Seg) : Moves s (resetArbiter s d) :=
  .setSeg _ _ _ (fun _ => by simp) (fun h => ⟨h.1, fun _ => rfl⟩) fun _ => id

theorem resetUnit_moves (s : State) (q : Port) : Moves s (resetUnit s q) :=
  (clearCheck_moves ..).comp (.setMgmt_keep _ _ _ rfl rfl rfl fun _ hf => hf)

/-- Every entry's counters at zero (R23). -/
theorem zeroCounters_moves (s : State) : Moves s (s.setCounters (Vector.replicate 32 Counters.zero)) :=
  .setCounters _ _ (fun _ _ => by simp [Counters.zero, Counters.wf]) fun _ => by simp [Counters.zero]

/-- A log emptied by SOFT RESET keeps its next sequence (R169). -/
theorem emptyLog_moves (s : State) : Moves s (s.setLog { s.log with records := [], dropped := 0 }) :=
  .setLog _ _ (fun _ => ⟨Nat.zero_le _, Nat.zero_le _, fun i => i.elim0⟩) fun _ => by simp

theorem runSoftReset_moves (p : Port) (s : State) : Moves s (runSoftReset p s).1 := by
  unfold runSoftReset
  refine ((resetUnit_moves ..).comp (resetUnit_moves ..)).comp ?_
  refine ((emptyLog_moves _).comp (zeroCounters_moves _)).comp ?_
  refine (clearCursors_moves _ _).comp ((softResetStaging_moves ..).comp ?_)
  exact (Moves.foldl _ resetArbiter_moves _ _).comp (abortContext_moves ..)

/-! ## Commands -/

theorem runSelectView_moves (p : Port) (v a o : Byte) (s : State) : Moves s (runSelectView p v a o s).1 := by
  unfold runSelectView
  split
  · exact .refl s
  · exact .setMgmt_keep _ _ _ rfl rfl rfl fun _ hf => hf

theorem runSetCheckMode_moves (p : Port) (m : Byte) (s : State) : Moves s (runSetCheckMode p m s).1 := by
  unfold runSetCheckMode
  split
  · exact .refl s
  · exact .setMgmt_keep _ _ _ rfl rfl rfl fun _ hf => hf

theorem runSetHoldLimit_moves (p : Port) (l : Byte) (s : State) : Moves s (runSetHoldLimit p l s).1 := by
  unfold runSetHoldLimit
  split
  case isTrue h => exact .setHoldLimit _ _ h
  case isFalse => exact .refl s

theorem runConfigureSegment_moves (d v t e : Byte) (s : State) : Moves s (runConfigureSegment d v t e s).1 := by
  unfold runConfigureSegment
  split
  · exact configure_moves ..
  · exact .refl s

theorem recover_moves (d : Seg) (s : State) : Moves s (s.setSeg d (s.seg d).recover) :=
  .setSeg_keep _ _ _ rfl (fun _ => ⟨fun _ => .inr rfl, by simp [Segment.recover]⟩) fun _ h => nomatch h

theorem runRecoverSegment_moves (d : Byte) (s : State) : Moves s (runRecoverSegment d s).1 := by
  unfold runRecoverSegment
  split
  · exact .refl s
  · split
    · exact recover_moves ..
    · exact recover_moves ..
    all_goals exact .refl s

theorem runLeaseSegment_moves (p : Port) (d : Byte) (w : Word16) (s : State) : Moves s (runLeaseSegment p d w s).1 := by
  unfold runLeaseSegment
  split
  · exact .refl s
  · split
    · exact .refl s
    · split
      · exact .refl s
      · split
        · exact .refl s
        · rename_i e _ _ hl _
          have hup : ¬ ((s.seg e).state = .disabled ∨ (s.seg e).state = .fault) := by simpa [leasable] using hl
          exact .setSeg_keep _ _ _ rfl (fun h => ⟨h.1, fun hst => absurd hst hup⟩) fun _ => id

theorem runReleaseLease_moves (p : Port) (d : Byte) (sda : Line) (s : State) : Moves s (runReleaseLease p d sda s).1 := by
  unfold runReleaseLease
  split
  · exact .refl s
  · split
    · exact .refl s
    · split
      · exact endLease_moves ..
      · exact .refl s

/-- What ACKNOWLEDGE LOG leaves is the newer end of the log. -/
theorem acknowledged_suffix {q : Word16} {l rest : List Violation} (h : acknowledged q l = some rest) :
    ∃ older, l = older ++ rest := by
  induction l with
  | nil => simp [acknowledged] at h
  | cons v l ih =>
    unfold acknowledged at h
    split at h
    · obtain rfl := Option.some.inj h
      exact ⟨[v], rfl⟩
    · obtain ⟨older, rfl⟩ := ih h
      exact ⟨v :: older, rfl⟩

/-- The newer end of a log in form is a log in form. -/
theorem Log.wf_suffix {l : Log} {older rest : List Violation} (h : l.wf) (hl : l.records = older ++ rest) :
    ({ l with records := rest } : Log).wf := by
  obtain ⟨hcap, hdrop, hseq⟩ := h
  have hlen : l.records.length = older.length + rest.length := by rw [hl, List.length_append]
  refine ⟨by simp only; omega, hdrop, fun ⟨i, hi⟩ => ?_⟩
  have hi' : i < rest.length := hi
  have hget : l.records[older.length + i]'(by omega) = rest[i] := by
    simp only [hl, List.getElem_append_right (Nat.le_add_right _ _), Nat.add_sub_cancel_left]
  have hold := hseq ⟨older.length + i, by omega⟩
  simp only [Fin.getElem_fin] at hold ⊢
  rw [← hget, hold, hlen, Nat.add_sub_add_left]

theorem runAcknowledgeLog_moves (q : Word16) (s : State) : Moves s (runAcknowledgeLog q s).1 := by
  unfold runAcknowledgeLog
  split
  · exact .refl s
  · rename_i rest h
    obtain ⟨older, hl⟩ := acknowledged_suffix h
    exact .setLog _ _ (fun hs => Log.wf_suffix hs hl) fun hs v hv => offsets_of_countsWf hs v (by rw [hl]; simp [hv])

theorem runClearCounters_moves (n : Byte) (s : State) : Moves s (runClearCounters n s).1 := by
  unfold runClearCounters
  split
  · exact .refl s
  · exact countEntry_moves _ (fun _ => .zero) _ (fun _ _ => ⟨Nat.zero_le _, Nat.zero_le _⟩) fun _ => Nat.zero_le _
  · exact zeroCounters_moves s

theorem invalidateEntry_moves (e : Entry) (s : State) : Moves s (invalidateEntry e s) := by
  unfold invalidateEntry
  split
  · exact .refl s
  · exact (detachContexts_moves ..).comp (clearCursors_moves ..)

theorem runInvalidateCursor_moves (n : Byte) (s : State) : Moves s (runInvalidateCursor n s).1 := by
  unfold runInvalidateCursor
  split
  · exact .refl s
  · exact invalidateEntry_moves ..
  · exact (detachContexts_moves ..).comp (clearCursors_moves ..)

theorem runSetAttentionMask_moves (m : Byte) (s : State) : Moves s (runSetAttentionMask m s).1 := by
  unfold runSetAttentionMask
  split
  · exact .refl s
  · exact .setMask ..

theorem runStageEntry_moves (p : Port) (n : Byte) (m : Word16) (i : EntryImage) (s : State) :
    Moves s (runStageEntry p n m i s).1 := by
  unfold runStageEntry
  split
  · exact .refl s
  · split
    · exact .refl s
    · split
      case h_1 hst => exact stage_moves _ _ _ _ _ (.inl hst)
      case h_2 q hst =>
        split
        · exact stage_moves _ _ _ _ _ (.inr ⟨q, hst⟩)
        · exact .refl s
      case h_3 => exact .refl s

theorem runRevertStaging_moves (p : Port) (s : State) : Moves s (runRevertStaging p s).1 := by
  unfold runRevertStaging
  split
  · exact .refl s
  case h_2 q hst =>
    split
    · exact .setStaging _ _ fun h => ⟨fun hf => by simp [hst] at hf, h.2.1, h.2.2⟩
    · exact .refl s
  · exact .refl s

theorem runDiscardStaging_moves (p : Port) (s : State) : Moves s (runDiscardStaging p s).1 := by
  unfold runDiscardStaging
  split
  · exact .refl s
  · split
    · exact freeStaging_moves s
    · exact .refl s
  · exact .refl s

theorem runCommit_moves (p : Port) (s : State) : Moves s (runCommit p s).1 := by
  unfold runCommit
  split
  · exact .refl s
  · split
    · exact .setStaging _ _ fun _ => ⟨fun h => (by cases h), fun _ h => (by cases h), fun _ _ => rfl⟩
    · exact .refl s
  · exact .refl s

theorem runCommand_moves (p : Port) (c : Command) (sda : Line) (s : State) : Moves s (runCommand p c sda s).1 := by
  cases c with
  | selectView => exact runSelectView_moves ..
  | clearError => exact clearCheck_moves ..
  | setCheckMode => exact runSetCheckMode_moves ..
  | setHoldLimit => exact runSetHoldLimit_moves ..
  | configureSegment => exact runConfigureSegment_moves ..
  | recoverSegment => exact runRecoverSegment_moves ..
  | leaseSegment => exact runLeaseSegment_moves ..
  | releaseLease => exact runReleaseLease_moves ..
  | acknowledgeLog => exact runAcknowledgeLog_moves ..
  | clearCounters => exact runClearCounters_moves ..
  | invalidateCursor => exact runInvalidateCursor_moves ..
  | setAttentionMask => exact runSetAttentionMask_moves ..
  | stageEntry => exact runStageEntry_moves ..
  | revertStaging => exact runRevertStaging_moves ..
  | discardStaging => exact runDiscardStaging_moves ..
  | commit => exact runCommit_moves ..
  | softReset => exact runSoftReset_moves ..

theorem takeFrame_moves (p : Port) (c : Command) (sda : Line) (s : State) : Moves s (takeFrame p c sda s) := by
  unfold takeFrame
  dsimp only
  split
  · exact (goodCheckNotice_moves ..).comp (writeResult_moves ..)
  · exact ((goodCheckNotice_moves ..).comp (writeResult_moves ..)).comp (runCommand_moves ..)

/-! ## Frames -/

/-- A fresh frame is in form (R137). -/
theorem Frame.start_wf (addr : Addr7) : (Frame.start addr).wf addr := ⟨fun _ => rfl, fun _ h => nomatch h⟩

theorem beginFrame_moves (p : Port) (s : State) : Moves s (beginFrame p s) :=
  ((Moves.setCtx_none ..).comp (answer_moves ..)).comp
    (setFrame_moves p _ s fun _ g hg => by obtain rfl := Option.some.inj hg; exact Frame.start_wf _)

theorem runningCheck_append (addr : Addr7) (l : List Byte) (b : Byte) :
    runningCheck addr (l ++ [b]) = crcFold (runningCheck addr l) b := by
  simp [runningCheck]

/-- A frame whose command byte is a code of payload length `n`. -/
theorem Frame.wf_of_known {addr : Addr7} {f : Frame} {code : Byte} {n : Nat} (hc : f.command = some code)
    (hn : payloadLength code = some n) (h : f.knownWf addr code n) : f.wf addr := by
  refine ⟨fun hnone => by simp [hc] at hnone, fun c hc' => ?_⟩
  obtain rfl : code = c := by rw [hc] at hc'; exact Option.some.inj hc'
  refine ⟨fun hnone => by simp [hn] at hnone, fun m hm => ?_⟩
  obtain rfl : n = m := by rw [hn] at hm; exact Option.some.inj hm
  exact h

/-- In a frame in form without a fault, the command byte is a code. -/
theorem Frame.known_of_wf {addr : Addr7} {f : Frame} {code : Byte} (h : f.wf addr) (hc : f.command = some code)
    (hf : f.fault = none) : ∃ n, payloadLength code = some n ∧ f.knownWf addr code n := by
  obtain ⟨hunknown, hknown⟩ := h.2 code hc
  cases hn : payloadLength code with
  | none => simp [hf] at hunknown; exact absurd hn hunknown
  | some n => exact ⟨n, rfl, hknown n hn⟩

theorem takeCommandByte_moves {p : Port} {f : Frame} (b : Byte) {s : State} (hf : (s.mgmt p).frame = some f)
    (hc : f.command = none) : Moves s (takeCommandByte p f b s) := by
  unfold takeCommandByte
  split
  case h_1 n hn =>
    refine (answer_moves ..).comp (setFrame_moves _ _ _ fun h g hg => ?_)
    obtain rfl := Option.some.inj hg
    have hstart : f = Frame.start s.mgmtAddr := (h f hf).1 hc
    exact Frame.wf_of_known rfl hn (by simp [Frame.knownWf, hstart, Frame.start, runningCheck])
  case h_2 hn =>
    refine (answer_moves ..).comp (setFrame_moves _ _ _ fun h g hg => ?_)
    obtain rfl := Option.some.inj hg
    have hstart : f = Frame.start s.mgmtAddr := (h f hf).1 hc
    refine ⟨fun hnone => (nomatch hnone), fun c hc' => ?_⟩
    obtain rfl := Option.some.inj hc'
    refine ⟨fun _ => ⟨rfl, by rw [hstart]; rfl, by rw [hstart]; rfl⟩, fun n hn' => by simp [hn] at hn'⟩

theorem takeCheckByte_moves {p : Port} {f : Frame} {code : Byte} (b : Byte) {s : State} (hf : (s.mgmt p).frame = some f)
    (hfault : f.fault = none) (hc : f.command = some code) (hmatched : f.matched = false)
    (hfull : f.wantsPayload code = false) : Moves s (takeCheckByte p f code b s) := by
  have hknown : ∀ h : f.wf s.mgmtAddr, ∃ n, payloadLength code = some n ∧ f.payload.length = n ∧
      f.crc = runningCheck s.mgmtAddr (code :: f.payload) := by
    intro h
    obtain ⟨n, hn, hle, hcrc, _⟩ := Frame.known_of_wf h hc hfault
    simp [Frame.wantsPayload, hn] at hfull
    exact ⟨n, hn, by omega, hcrc⟩
  unfold takeCheckByte
  split
  · refine (answer_moves ..).comp (setFrame_moves _ _ _ fun h g hg => ?_)
    obtain rfl := Option.some.inj hg
    obtain ⟨n, hn, hlen, hcrc⟩ := hknown (h f hf)
    exact Frame.wf_of_known hc hn ⟨hlen.le, hcrc, fun _ => hlen, .inl hfault⟩
  · refine ((answer_moves ..).comp (checkFailure_moves ..)).comp (setFrame_moves _ _ _ fun h g hg => ?_)
    obtain rfl := Option.some.inj hg
    obtain ⟨n, hn, hlen, hcrc⟩ := hknown (h f hf)
    exact Frame.wf_of_known hc hn ⟨hlen.le, hcrc, fun _ => hlen, .inr (.inl ⟨rfl, hlen, hmatched⟩)⟩

theorem takeFrameByte_moves {p : Port} {f : Frame} (b : Byte) {s : State} (hf : (s.mgmt p).frame = some f) :
    Moves s (takeFrameByte p f b s) := by
  unfold takeFrameByte
  split
  · exact answer_moves ..
  case h_2 _ hc => exact takeCommandByte_moves b hf hc
  case h_3 code hfault hc =>
    split
    case isTrue hmatched =>
      refine (answer_moves ..).comp (setFrame_moves _ _ _ fun h g hg => ?_)
      obtain rfl := Option.some.inj hg
      obtain ⟨n, hn, hle, hcrc, hlen, _⟩ := Frame.known_of_wf (h f hf) hc hfault
      exact Frame.wf_of_known hc hn ⟨hle, hcrc, hlen, .inr (.inr ⟨rfl, hmatched⟩)⟩
    case isFalse hmatched =>
      split
      case isTrue hwants =>
        refine (answer_moves ..).comp (setFrame_moves _ _ _ fun h g hg => ?_)
        obtain rfl := Option.some.inj hg
        obtain ⟨n, hn, hle, hcrc, _⟩ := Frame.known_of_wf (h f hf) hc hfault
        simp [Frame.wantsPayload, hn] at hwants
        refine Frame.wf_of_known hc hn ⟨by simpa using hwants, ?_, fun h => absurd h hmatched, .inl hfault⟩
        rw [hcrc, ← runningCheck_append, List.cons_append]
      case isFalse hfull =>
        exact takeCheckByte_moves b hf hfault hc (by simpa using hmatched) (by simpa using hfull)

theorem frameEnd_moves (p : Port) (sda : Line) (s : State) : Moves s (frameEnd p sda s) := by
  have hnone := setFrame_none_moves p s
  unfold frameEnd
  split
  · exact .refl s
  · dsimp only
    split
    · exact hnone.trans (writeResult_moves ..)
    · exact hnone.trans (writeResult_moves ..)
    · exact hnone.trans (writeResult_moves ..)
    · exact (hnone.trans (writeResult_moves ..)).trans (goodCheckNotice_moves ..)
    · split
      · split
        · exact hnone.trans (takeFrame_moves ..)
        · exact hnone.trans (writeResult_moves ..)
      · exact hnone.trans (writeResult_moves ..)

theorem discardFrame_moves (p : Port) (s : State) : Moves s (discardFrame p s) := by
  unfold discardFrame
  split
  · exact .refl s
  · exact (setFrame_none_moves ..).trans (writeResult_moves ..)

/-! ## Management reads -/

theorem takeSnapshot_moves (p : Port) (s : State) : Moves s (takeSnapshot p s) :=
  (((Moves.setCtx_none ..).comp (deliver_moves ..)).comp (setReading_moves ..)).comp (setViewCursor_moves ..)

theorem advanceView_moves (p : Port) (r : ReadPosition) (s : State) : Moves s (advanceView p r s) := by
  unfold advanceView
  dsimp only
  split
  · exact (setReading_moves ..).comp (setViewCursor_moves ..)
  · exact setReading_moves ..

theorem viewAnswer_moves (p : Port) (r : ReadPosition) (a : Ack) (s : State) : Moves s (viewAnswer p r a s) := by
  unfold viewAnswer
  cases a
  · exact (deliver_moves ..).comp (advanceView_moves ..)
  · exact (releaseLines_moves ..).comp (advanceView_moves ..)

theorem cutOff_moves (p : Port) (eighth : Bool) (s : State) : Moves s (cutOff p eighth s) := by
  unfold cutOff
  split
  · split
    · exact advanceView_moves ..
    · exact .refl s
  · exact .refl s

theorem endRead_moves (p : Port) (s : State) : Moves s (endRead p s) :=
  (toIdle_moves ..).comp (setReading_moves ..)

end Sys2Proof.Machine
end

section
/-! PROOFS. What one event can do: it is a move, or one of the few events that are none (`exec_cases`); and so is a step (`step_cases`). -/

namespace Sys2Proof.Machine

/-! ## When an event has an effect -/

/-- An upstream event has no effect, or it has its meaning after SCL was seen high. -/
theorem upstream_next {p : Port} {s t : State} {k : State → Out} (h : upstream p s k = .next t) :
    t = s ∨ k (sclSeen p s) = .next t := by
  unfold upstream at h
  split at h
  · exact .inl (Host.Outcome.next.inj h).symm
  · split at h
    · exact nomatch h
    · exact .inr h

/-- An event of the part has no effect, or it has its meaning. -/
theorem running_next {s t : State} {k : State → Out} (h : running s k = .next t) : t = s ∨ k s = .next t := by
  unfold running at h
  split at h
  · exact .inl (Host.Outcome.next.inj h).symm
  · exact .inr h

/-- A byte that the part does not take changes nothing. -/
theorem notTaken_next {p : Port} {s t : State} (h : notTaken p s = .next t) : t = s := by
  unfold notTaken at h
  split at h
  · exact (Host.Outcome.next.inj h).symm
  · exact nomatch h

/-- An upstream event whose meaning only moves, moves. -/
theorem upstream_moves {p : Port} {s t : State} {k : State → Out} (h : upstream p s k = .next t)
    (hk : ∀ u, k (sclSeen p s) = .next u → Moves (sclSeen p s) u) : Moves s t := by
  rcases upstream_next h with rfl | h
  · exact .refl _
  · exact (sclSeen_moves p s).trans (hk _ h)

theorem running_moves {s t : State} {k : State → Out} (h : running s k = .next t) (hk : ∀ u, k s = .next u → Moves s u) :
    Moves s t := by
  rcases running_next h with rfl | h
  · exact .refl _
  · exact hk _ h

theorem next_moves {s t u : State} (h : (Host.Outcome.next u : Out) = .next t) (hu : Moves s u) : Moves s t := by
  obtain rfl := Host.Outcome.next.inj h
  exact hu

theorem notTaken_moves {p : Port} {s t : State} (h : notTaken p s = .next t) : Moves s t := by
  obtain rfl := notTaken_next h
  exact .refl _

/-! ## Upstream conditions -/

/-- What an access hands back at its end is in range: absent, or its cursor. -/
theorem endingCursor_allows {s : State} {p : Port} {a : Access} (st : CtxState) (ha : (s.ctx p).access = some a)
    (hs : s.indexesWf) : ∀ b ∈ (s.ctx p).access, b.copy.width.allows (endingCursor st a) := by
  intro b hb
  unfold endingCursor
  split
  · exact IndexWidth.allows_none _
  · exact cursor_allows ha hs b hb

theorem endingTail_ne (st : CtxState) (a : Access) (b : Byte) : endingTail st a ≠ some (.dataByte b) := by
  unfold endingTail
  split <;> simp

theorem retain_moves {p : Port} {a : Access} (d : Seg) {s : State} (ha : (s.ctx p).access = some a) :
    Moves s (retain p a d s) := by
  have hback : Moves s (handBack a (endingCursor (s.ctx p).state a) s) :=
    handBack_moves _ _ _ fun hs => endingCursor_allows _ ha hs a ha
  refine (Moves.setCtx_none ..).comp (.comp (.setSeg_keep _ _ _ rfl id fun b hb => ?_) hback)
  dsimp only at hb
  rcases Option.or_eq_some_iff.mp hb with hb | ⟨_, hb⟩
  · exact hb
  · exact absurd hb (endingTail_ne _ _ b)

theorem retainHeld_moves (p : Port) (s : State) : Moves s (retainHeld p s) := by
  unfold retainHeld
  split
  · exact .refl s
  · rename_i a ha
    split
    · exact .refl s
    · exact retain_moves _ ha

theorem endHeld_moves (p : Port) (s : State) : Moves s (endHeld p s) := by
  unfold endHeld
  dsimp only
  split
  · exact (dropRetained_moves ..).trans (toIdle_moves ..)
  · rename_i a ha
    exact (letGo_moves _ _ _ _ (endingCursor_allows _ ha) (endingTail_ne _ _)).trans (toIdle_moves ..)

theorem repeated_moves (p : Port) (sda : Line) (s : State) : Moves s (repeated p sda s) := by
  unfold repeated
  cases (s.ctx p).state with
  | writeIndex | writeData | readData | readEnd => exact retainHeld_moves ..
  | mgmtWrite => exact (toIdle_moves ..).trans (frameEnd_moves ..)
  | mgmtRead => exact endRead_moves ..
  | idle | unaddressed | matching | waiting | opening | filler | refusing => exact toIdle_moves ..

theorem stopped_moves (p : Port) (sda : Line) (s : State) : Moves s (stopped p sda s) := by
  unfold stopped
  cases (s.ctx p).state with
  | writeIndex | writeData | readData | readEnd => exact endHeld_moves ..
  | mgmtWrite => exact (toIdle_moves ..).trans (frameEnd_moves ..)
  | mgmtRead => exact endRead_moves ..
  | idle | unaddressed | matching | waiting | opening | filler | refusing => exact toIdle_moves ..

theorem startSeen_moves (p : Port) (sda : Line) (eighth : Bool) (s : State) : Moves s (startSeen p sda eighth s) := by
  unfold startSeen
  split
  · exact startCondition_moves ..
  · exact ((repeated_moves ..).comp (startCondition_moves ..)).comp (cutOff_moves ..)

theorem execStart_moves {p : Port} {sda : Line} {eighth : Bool} {s t : State}
    (h : upstream p s (fun s => .next (startSeen p sda eighth s)) = .next t) : Moves s t :=
  upstream_moves h fun _ hu => next_moves hu (startSeen_moves ..)

theorem execStop_moves {p : Port} {sda : Line} {eighth : Bool} {s t : State} (h : execStop p sda s eighth = .next t) :
    Moves s t := by
  refine upstream_moves h fun u hu => ?_
  split at hu
  · exact next_moves hu (.refl _)
  · exact next_moves hu (((stopped_moves ..).comp (stopCondition_moves ..)).comp (cutOff_moves ..))

/-! ## The address byte -/

theorem unanswered_moves (p : Port) (s : State) : Moves s (unanswered p s) :=
  (answer_moves ..).trans (.setCtx_none ..)

theorem addressOutcome_moves (p : Port) (o : AddressOutcome) (s : State) : Moves s (addressOutcome p o s) := by
  cases o with
  | unanswered => exact unanswered_moves ..
  | frame => exact beginFrame_moves ..
  | snapshot => exact takeSnapshot_moves ..
  | refused k i => exact refuse_zero_moves ..
  | request sda =>
    simp only [addressOutcome]
    split
    · exact .refl s
    · exact request_moves ..

theorem settle_moves (p : Port) (o : AddressOutcome) (s : State) : Moves s (settle p o s) := by
  unfold settle
  split
  · exact addressOutcome_moves ..
  · exact awaitRelease_moves ..

/-- A fresh access has no count and no index. -/
theorem setCtx_new_moves (p : Port) (st : CtxState) (n : Fin 32) (e : Entry) (dir : Dir) (r : Option Seg) (s : State) :
    Moves s (s.setCtx p ⟨st, some (Access.new n e dir), r⟩) :=
  .setCtx _ _ _ (fun _ a ha => by obtain rfl := Option.some.inj ha; exact Nat.zero_le _)
    fun _ a ha => by obtain rfl := Option.some.inj ha; exact ⟨IndexWidth.allows_none _, fun _ => rfl⟩

theorem matched_moves (p : Port) (n : Fin 32) (dir : Dir) (sda : Line) (s : State) : Moves s (matched p n dir sda s) := by
  have hnew := setCtx_new_moves p .matching n s.active[n] dir (s.ctx p).retained s
  unfold matched
  dsimp only
  split
  · exact hnew.trans (settle_moves ..)
  · split
    · exact hnew.trans (keepSegment_moves ..)
    · exact hnew.trans (settle_moves ..)

theorem resolve_moves (p : Port) (x : Addr7) (dir : Dir) (sda : Line) (s : State) : Moves s (resolve p x dir sda s) := by
  have hheld : Moves s ((holdClock p s).setCtx p ⟨.matching, none, (s.ctx p).retained⟩) :=
    (holdClock_moves ..).trans (.setCtx_none ..)
  unfold resolve
  dsimp only
  split
  · cases dir <;> exact hheld.trans (settle_moves ..)
  · split
    · exact hheld.trans (settle_moves ..)
    · split
      · exact hheld.trans (settle_moves ..)
      · exact hheld.trans (matched_moves ..)

theorem execAddressByte_moves {p : Port} {b : Byte} {sda : Line} {s t : State} (h : execAddressByte p b sda s = .next t) :
    Moves s t := by
  refine upstream_moves h fun u hu => ?_
  split at hu
  · exact next_moves hu ((setRole_moves ..).trans (resolve_moves ..))
  · exact notTaken_moves hu

theorem afterRelease_moves (d : Seg) (leave : State → State) (h : ∀ t, Moves t (leave t)) (s : State) :
    Moves s (afterRelease d leave s) := by
  unfold afterRelease
  split
  · exact h s
  · exact ((addressOutcome_moves ..).comp (h _)).comp (.setSeg_keep _ _ _ rfl id fun _ => id)

/-! ## Written bytes and answers -/

theorem execFrameByte_moves {p : Port} {b : Byte} {s t : State} (h : execFrameByte p b s = .next t) : Moves s t := by
  refine upstream_moves h fun u hu => ?_
  split at hu
  · rename_i f _ hf
    exact next_moves hu (takeFrameByte_moves b hf)
  · exact notTaken_moves hu

/-- A transfer that carries no data byte. -/
theorem beginTransfer_moves (p : Port) (d : Seg) (x : Transfer) (s : State) (h : ∀ b, x ≠ .dataByte b) :
    Moves s (beginTransfer p d x s) :=
  (holdClock_moves ..).comp (.setSeg_keep _ _ _ rfl id fun b hb => absurd (Option.some.inj hb) (h b))

theorem execWriteIndexByte_moves {p : Port} {b : Byte} {s t : State} (h : execWriteIndexByte p b s = .next t) : Moves s t := by
  refine upstream_moves h fun u hu => ?_
  split at hu
  · exact next_moves hu (beginTransfer_moves _ _ _ _ (by simp))
  · exact notTaken_moves hu

theorem heldIn_access {p : Port} {st : CtxState} {s : State} {a : Access} {d : Seg} (h : heldIn p st s = some (a, d)) :
    (s.ctx p).access = some a := by
  obtain ⟨_, ha, _⟩ := heldIn_eq_some_iff.mp h
  exact ha

/-- A refusal leaves every access record as it is. -/
theorem refuse_access (p : Port) (k : Kind) (i : Option Word16) (o : Nat) (s : State) :
    ((refuse p k i o s).ctx p).access = (s.ctx p).access := by rw [refuse_ctx]

theorem refuseDataByte_moves {p : Port} {a : Access} (k : Kind) {s : State} (ha : (s.ctx p).access = some a) :
    Moves s (refuseDataByte p a k s) :=
  (letGo_moves _ _ none _ (cursor_allows (by rw [refuse_access]; exact ha)) fun _ h => nomatch h).comp
    (refuse_moves _ _ _ _ _ fun hs => count_of_countsWf hs ha)

/-- A written data byte is refused, which is a move, or forwarded. -/
theorem execWriteDataByte_cases {p : Port} {b : Byte} {s t : State} (h : execWriteDataByte p b s = .next t) :
    Moves s t ∨ ∃ a d, s.accessing p .writeData a d ∧ writeCheck a = none ∧
      t = beginTransfer p d (.dataByte b) (sclSeen p s) := by
  rcases upstream_next h with rfl | h
  · exact .inl (.refl _)
  · split at h
    · rename_i a d hheld
      have hacc := heldIn_eq_some_iff.mp hheld
      split at h
      · exact .inr ⟨a, d, hacc, by assumption, (Host.Outcome.next.inj h).symm⟩
      · exact .inl ((sclSeen_moves p s).trans (next_moves h (refuseDataByte_moves _ hacc.2.1)))
    · exact .inl ((sclSeen_moves p s).trans (notTaken_moves h))

@[simp] theorem penalize_ctx (p : Port) (k : Kind) (i : Option Word16) (o : Nat) (s : State) (q : Port) :
    (penalize p k i o s).ctx q = s.ctx q := by
  obtain ⟨l, c, h⟩ := penalize_local p k i o s
  rw [h]; rfl

theorem cutShort_moves {p : Port} {a : Access} (k : Kind) {s : State} (ha : (s.ctx p).access = some a) :
    Moves s (cutShort p a k s) :=
  (((setState_moves ..).comp (deliver_moves ..)).comp
    (letGo_moves _ _ _ _ (cursor_allows (by rw [penalize_ctx]; exact ha)) fun _ h => by cases h)).comp
      (penalize_moves _ _ _ _ _ fun hs => count_of_countsWf hs ha)

theorem execReadByteAck_moves {p : Port} {s t : State} (h : execReadByteAck p s = .next t) : Moves s t := by
  refine upstream_moves h fun u hu => ?_
  split at hu
  · rename_i a d hheld
    split at hu
    · exact next_moves hu (beginTransfer_moves _ _ _ _ (by simp))
    · exact next_moves hu (cutShort_moves _ (heldIn_access hheld))
  · exact notTaken_moves hu

theorem execReadByteNak_moves {p : Port} {s t : State} (h : execReadByteNak p s = .next t) : Moves s t := by
  refine upstream_moves h fun u hu => ?_
  dsimp only at hu
  split at hu
  · exact next_moves hu (((setState_moves ..).comp (releaseLines_moves ..)).comp
      (.setSeg_keep _ _ _ rfl id fun _ h => by cases h))
  · exact notTaken_moves hu

theorem execFillerByteAnswer_moves {p : Port} {a : Ack} {s t : State} (h : execFillerByteAnswer p a s = .next t) :
    Moves s t := by
  refine upstream_moves h fun u hu => ?_
  split at hu
  · cases a
    · exact next_moves hu (deliver_moves ..)
    · exact next_moves hu ((setState_moves ..).comp (releaseLines_moves ..))
  · exact notTaken_moves hu

theorem execViewByteAnswer_moves {p : Port} {a : Ack} {s t : State} (h : execViewByteAnswer p a s = .next t) : Moves s t := by
  refine upstream_moves h fun u hu => ?_
  split at hu
  · split at hu
    · exact next_moves hu (viewAnswer_moves ..)
    · exact notTaken_moves hu
  · exact notTaken_moves hu

/-! ## The upstream port reset -/

@[simp] theorem record_ctx (p : Port) (k : Kind) (i : Option Word16) (o : Nat) (s : State) (q : Port) :
    (record p k i o s).ctx q = s.ctx q := by
  rcases record_spec p k i o s with h | ⟨a, _, h⟩ <;> rw [h]
  rfl

theorem loseAccess_moves (p : Port) (s : State) : Moves s (loseAccess p s) := by
  unfold loseAccess
  split
  · exact endHeld_moves ..
  · rename_i a ha
    exact (endHeld_moves ..).comp (record_moves _ _ _ _ _ fun hs => count_of_countsWf hs ha)

theorem lost_moves (p : Port) (s : State) : Moves s (lost p s) := by
  unfold lost
  cases (s.ctx p).state with
  | writeIndex | writeData | readData | readEnd => exact loseAccess_moves ..
  | mgmtWrite => exact (toIdle_moves ..).trans (discardFrame_moves ..)
  | mgmtRead => exact endRead_moves ..
  | idle | unaddressed | matching | waiting | opening | filler | refusing => exact toIdle_moves ..

theorem execUpstreamBusTimeout_moves {p : Port} {eighth : Bool} {s t : State}
    (h : execUpstreamBusTimeout p s eighth = .next t) : Moves s t := by
  refine running_moves h fun u hu => ?_
  split at hu
  · exact nomatch hu
  · split at hu
    · exact next_moves hu (.refl _)
    · exact next_moves hu (((lost_moves ..).comp (resetFrontEnd_moves ..)).comp (cutOff_moves ..))

/-! ## Targets' answers -/

theorem endTransfer_moves (d : Seg) (s : State) : Moves s (endTransfer d s) :=
  .setSeg_keep _ _ _ rfl id fun _ h => nomatch h

theorem refuseByTarget_moves {p : Port} {a : Access} (k : Kind) (i : Option Word16) {o : Nat} {v : Option Word16} {s : State}
    (ha : (s.ctx p).access = some a) (ho : o ≤ a.count) (hv : v = none ∨ v = a.cursor) :
    Moves s (refuseByTarget p k i o v s) := by
  refine (letGo_moves _ _ none _ (fun hs b hb => ?_) fun _ h => nomatch h).comp
    (refuse_moves _ _ _ _ _ fun hs => ho.trans (count_of_countsWf hs ha))
  rcases hv with rfl | rfl
  · exact IndexWidth.allows_none _
  · exact cursor_allows (by rw [refuse_access]; exact ha) hs b hb

/-- The target's answer to an address is a move, or its ACK for an access that holds the segment. -/
theorem execTargetAddressAnswer_cases {d : Seg} {x : Ack} {ninth : Bool} {s t : State}
    (h : execTargetAddressAnswer d x s ninth = .next t) :
    Moves s t ∨ ∃ p a again y dir, x = .ack ∧ (s.seg d).transfer = some (.start again y dir) ∧
      (s.seg d).holder = some p ∧ (s.ctx p).access = some a ∧ t = opened p a d ninth (endTransfer d s) := by
  rcases running_next h with rfl | h
  · exact .inl (.refl _)
  dsimp only at h
  split at h
  · rename_i again y dir hx
    split at h
    · exact .inl (next_moves h (endTransfer_moves ..))
    · rename_i p a hp
      obtain ⟨hholder, hacc⟩ := holderAccess_eq_some.mp hp
      cases x with
      | ack => exact .inr ⟨p, a, again, y, dir, rfl, hx, hholder, hacc, (Host.Outcome.next.inj h).symm⟩
      | nak =>
        exact .inl (next_moves h ((refuseByTarget_moves _ _ (a := a) (s := endTransfer d s) hacc (Nat.zero_le _) (.inr rfl)).comp
          (endTransfer_moves ..)))
  · exact nomatch h

/-- The working cursor after an index byte is in range: the value of width 1 is that one byte (R74). -/
theorem takeIndex_indexWf {a : Access} (b : Byte) (h : a.indexWf) : (a.takeIndex b).indexWf := by
  obtain ⟨hcursor, hvalue⟩ := h
  refine ⟨fun hone => ?_, fun hzero => by simp [Access.takeIndex] at hzero⟩
  have hone' : a.copy.width = .one := hone
  by_cases hfull : a.indexBytes + 1 = a.copy.width.bytes
  · have hfirst : a.indexValue = 0#16 := hvalue (by rw [hone'] at hfull; simpa [IndexWidth.bytes] using hfull)
    have hb := b.isLt
    simp only [Access.takeIndex, hfull, if_true, Option.getD_some, hfirst]
    simp only [BitVec.zero_shiftLeft, BitVec.zero_or, BitVec.truncate_eq_setWidth, BitVec.toNat_setWidth]
    omega
  · simp only [Access.takeIndex, hfull, if_false]
    exact hcursor hone'

theorem indexTaken_moves {p : Port} {a : Access} (b : Byte) {s : State} (ha : (s.ctx p).access = some a) :
    Moves s (indexTaken p a b s) := by
  refine Moves.comp (.setCtx _ _ _ (fun hs x hx => ?_) fun hs x hx => ?_) (answer_moves p .ack s)
  · obtain rfl := Option.some.inj hx
    exact count_of_countsWf (p := p) (a := a) hs ha
  · obtain rfl := Option.some.inj hx
    exact takeIndex_indexWf b (indexWf_of_indexesWf (p := p) hs ha)

theorem execIndexByteAnswer_moves {d : Seg} {x : Ack} {s t : State} (h : execIndexByteAnswer d x s = .next t) :
    Moves s t := by
  refine running_moves h fun u hu => ?_
  dsimp only at hu
  split at hu
  · split at hu
    · exact next_moves hu (endTransfer_moves ..)
    · rename_i p a hp
      obtain ⟨_, hacc⟩ := holderAccess_eq_some.mp hp
      cases x with
      | ack => exact next_moves hu ((indexTaken_moves (s := endTransfer d s) _ hacc).comp (endTransfer_moves ..))
      | nak =>
        exact next_moves hu ((refuseByTarget_moves _ _ (a := a) (s := endTransfer d s) hacc (Nat.zero_le _) (.inl rfl)).comp (endTransfer_moves ..))
  · exact nomatch hu

/-- An advanced cursor is in range (R75). -/
theorem advance_allows {w : IndexWidth} (v : Option Word16) : w.allows (advance w v) := by
  rintro rfl
  cases v with
  | none => simp [advance]
  | some i =>
    simp only [advance, Option.getD_some, BitVec.toNat_and]
    exact Nat.and_le_right

theorem setAccess_passed_moves {p : Port} {a : Access} {s : State} (ha : (s.ctx p).access = some a) :
    Moves s (setAccess p a.passed s) := by
  refine .setCtx _ _ _ (fun _ x hx => ?_) fun hs x hx => ?_
  · obtain rfl := Option.some.inj hx
    exact satInc_le ..
  · obtain rfl := Option.some.inj hx
    exact ⟨advance_allows _, (indexWf_of_indexesWf hs ha).2⟩

theorem execDataByteAnswer_moves {d : Seg} {x : Ack} {s t : State} (h : execDataByteAnswer d x s = .next t) :
    Moves s t := by
  refine running_moves h fun u hu => ?_
  dsimp only at hu
  split at hu
  · split at hu
    · exact next_moves hu (endTransfer_moves ..)
    · rename_i p a hp
      obtain ⟨_, hacc⟩ := holderAccess_eq_some.mp hp
      cases x with
      | ack => exact next_moves hu (((setAccess_passed_moves (s := answer p .ack (endTransfer d s)) hacc).comp (answer_moves ..)).comp (endTransfer_moves ..))
      | nak =>
        exact next_moves hu ((refuseByTarget_moves _ _ (a := a) (s := endTransfer d s) hacc le_rfl (.inl rfl)).comp (endTransfer_moves ..))
  · exact nomatch hu

theorem execFetchedByte_moves {d : Seg} {b : Byte} {s t : State} (h : execFetchedByte d b s = .next t) : Moves s t := by
  refine running_moves h fun u hu => ?_
  dsimp only at hu
  split at hu
  · split at hu
    · exact next_moves hu (.setSeg_keep _ _ _ rfl id fun _ h => by cases h)
    · rename_i p a hp
      obtain ⟨_, hacc⟩ := holderAccess_eq_some.mp hp
      exact next_moves hu (((deliver_moves ..).comp (setAccess_passed_moves (s := endTransfer d s) hacc)).comp (endTransfer_moves ..))
  · exact nomatch hu

theorem execNakOfByteEnd_moves {d : Seg} {sda : Line} {s t : State} (h : execNakOfByteEnd d sda s = .next t) :
    Moves s t := by
  refine running_moves h fun u hu => ?_
  dsimp only at hu
  split at hu
  · split at hu
    · split at hu
      · exact next_moves hu ((beginOpening_moves ..).comp (endTransfer_moves ..))
      · exact next_moves hu (endTransfer_moves ..)
    · exact next_moves hu (endTransfer_moves ..)
  · exact nomatch hu

/-! ## Close, stall and recovery -/

theorem execCloseEnd_moves {d : Seg} {sda : Line} {s t : State} (h : execCloseEnd d sda s = .next t) : Moves s t := by
  refine running_moves h fun u hu => ?_
  dsimp only at hu
  split at hu
  · exact next_moves hu (afterRelease_moves _ _ (leaveInOrder_moves d sda) s)
  · exact nomatch hu

theorem stallAnswer_moves (p : Port) (s : State) : Moves s (stallAnswer p s) := by
  unfold stallAnswer
  split
  · exact (setState_moves ..).comp (deliver_moves ..)
  · exact setState_moves ..
  · exact (setState_moves ..).comp (answer_moves ..)

theorem stallAccess_moves {p : Port} {a : Access} (d : Seg) {s : State} (ha : (s.ctx p).access = some a) :
    Moves s (stallAccess p a d s) :=
  (((stallAnswer_moves ..).comp (enterStalled_moves ..)).comp (giveUp_moves _ _ _ fun _ _ _ => IndexWidth.allows_none _)).comp
    (penalize_moves _ _ _ _ _ fun hs => count_of_countsWf hs ha)

theorem stallHeld_moves (d : Seg) (s : State) : Moves s (stallHeld d s) := by
  unfold stallHeld
  split
  · exact openingStuck_moves ..
  · split
    · exact afterRelease_moves _ _ (enterStalled_moves d) s
    · split
      · exact (toIdle_moves ..).comp (enterStalled_moves ..)
      · rename_i a ha
        exact stallAccess_moves d ha

theorem execStallTimeout_moves {d : Seg} {s t : State} (h : execStallTimeout d s = .next t) : Moves s t := by
  refine running_moves h fun u hu => ?_
  split at hu
  · exact nomatch hu
  · split at hu
    · exact next_moves hu (leaveInFault_segmentReport_moves ..)
    · exact next_moves hu (stallHeld_moves ..)

theorem execRecoveryEnd_moves {d : Seg} {final sda : Line} {s t : State} (h : execRecoveryEnd d final sda s = .next t) :
    Moves s t := by
  refine running_moves h fun u hu => ?_
  split at hu
  · cases final
    · exact next_moves hu (leaveInOrder_moves ..)
    · exact next_moves hu (leaveInFault_segmentReport_moves ..)
  · exact nomatch hu

theorem execOpeningBusClearEnd_moves {d : Seg} {final sda : Line} {s t : State}
    (h : execOpeningBusClearEnd d final sda s = .next t) : Moves s t := by
  refine running_moves h fun u hu => ?_
  split at hu
  · cases final
    · exact next_moves hu (openingClears_moves ..)
    · exact next_moves hu (openingStuck_moves ..)
  · exact nomatch hu

/-! ## Timers and commits -/

theorem execHoldLimitExpiry_moves {p : Port} {s t : State} (h : execHoldLimitExpiry p s = .next t) : Moves s t := by
  refine running_moves h fun u hu => ?_
  split at hu
  · refine next_moves hu ?_
    unfold endWait
    split
    · exact .refl s
    · split
      · exact (refuse_zero_moves ..).comp (dropWaiter_moves ..)
      · exact .refl s
  · exact next_moves hu (.refl s)

theorem execLeaseExpiry_moves {d : Seg} {sda : Line} {s t : State} (h : execLeaseExpiry d sda s = .next t) : Moves s t := by
  refine running_moves h fun u hu => ?_
  split at hu
  · exact next_moves hu (.refl s)
  · split at hu
    · exact next_moves hu (endLease_moves ..)
    · exact next_moves hu (.refl s)

theorem execOwnershipIdleTimeout_moves {s t : State} (h : execOwnershipIdleTimeout s = .next t) : Moves s t := by
  refine running_moves h fun u hu => ?_
  split at hu
  · split at hu
    · exact next_moves hu (freeStaging_moves s)
    · exact next_moves hu (.refl s)
  · exact next_moves hu (.refl s)

/-- The completion of a commit is a move, or it installs the image. -/
theorem execCommitCompletion_cases {s t : State} (h : execCommitCompletion s = .next t) :
    Moves s t ∨ ∃ p, s.staging.state = .committing p ∧ validate s.mgmtAddr s.staging.image = none ∧
      t = completeValid p s := by
  rcases running_next h with rfl | h
  · exact .inl (.refl _)
  · split at h
    · rename_i p hst
      unfold complete at h
      split at h
      · rename_i hv
        exact .inr ⟨p, hst, hv, (Host.Outcome.next.inj h).symm⟩
      · exact .inl (next_moves h (completeInvalid_moves ..))
    · exact .inl (next_moves h (.refl s))

/-! ## One event and one step -/

theorem commandRow_moves {p : Port} {c : Command} {sda : Line} {s t : State} (h : commandRow p c sda s = .next t) :
    Moves s t := by
  unfold commandRow at h
  split at h
  · exact next_moves h (.refl s)
  · split at h
    · exact nomatch h
    · split at h
      · exact next_moves h (takeFrame_moves ..)
      · exact nomatch h

/-- The events that are no moves: the forwarding of a data byte, the target's ACK of an address, a valid commit, and the resets. -/
inductive Exceptional (s t : State) : Instr → Prop where
  | dataByte (p : Port) (b : Byte) (a : Access) (d : Seg) (hacc : s.accessing p .writeData a d) (hcheck : writeCheck a = none)
      (ht : t = beginTransfer p d (.dataByte b) (sclSeen p s)) : Exceptional s t (.writeDataByte p b)
  | ack (d : Seg) (ninth : Bool) (p : Port) (a : Access) (again : Bool) (y : Addr7) (dir : Dir)
      (hx : (s.seg d).transfer = some (.start again y dir)) (hholder : (s.seg d).holder = some p)
      (hacc : (s.ctx p).access = some a) (ht : t = opened p a d ninth (endTransfer d s)) :
      Exceptional s t (.targetAddressAnswer d .ack ninth)
  | commit (p : Port) (hst : s.staging.state = .committing p) (hv : validate s.mgmtAddr s.staging.image = none)
      (ht : t = completeValid p s) : Exceptional s t .commitCompletion
  | powerOn (ma1 ma0 : Bool) (sclA sclB : Line) (ht : t = release ma1 ma0 sclA sclB s) :
      Exceptional s t (.powerOn ma1 ma0 sclA sclB)
  | release (ma1 ma0 : Bool) (sclA sclB : Line) (ht : t = Machine.release ma1 ma0 sclA sclB s) :
      Exceptional s t (.resetNRelease ma1 ma0 sclA sclB)
  | resetLow (ht : exec .resetNLow s = .next t) : Exceptional s t .resetNLow

/-- What an event can do. -/
theorem exec_cases {c : Instr} {s t : State} (h : exec c s = .next t) : Moves s t ∨ Exceptional s t c := by
  cases c with
  | powerOn ma1 ma0 a b => exact .inr (.powerOn ma1 ma0 a b (Host.Outcome.next.inj h).symm)
  | resetNLow => exact .inr (.resetLow h)
  | resetNRelease ma1 ma0 a b =>
    have h' : (if s.inReset then .next (release ma1 ma0 a b s) else .next s : Out) = .next t := h
    split at h'
    · exact .inr (.release ma1 ma0 a b (Host.Outcome.next.inj h').symm)
    · exact .inl (next_moves h' (.refl s))
  | upstreamStart => exact .inl (execStart_moves h)
  | repeatedStart => exact .inl (execStart_moves h)
  | stop => exact .inl (execStop_moves h)
  | addressByte => exact .inl (execAddressByte_moves h)
  | frameByte => exact .inl (execFrameByte_moves h)
  | writeIndexByte => exact .inl (execWriteIndexByte_moves h)
  | writeDataByte p b =>
    rcases execWriteDataByte_cases h with h | ⟨a, d, hacc, hcheck, ht⟩
    · exact .inl h
    · exact .inr (.dataByte p b a d hacc hcheck ht)
  | targetAddressAnswer d x ninth =>
    rcases execTargetAddressAnswer_cases h with h | ⟨p, a, again, y, dir, rfl, hx, hholder, hacc, ht⟩
    · exact .inl h
    · exact .inr (.ack d ninth p a again y dir hx hholder hacc ht)
  | indexByteAnswer => exact .inl (execIndexByteAnswer_moves h)
  | dataByteAnswer => exact .inl (execDataByteAnswer_moves h)
  | fetchedByte => exact .inl (execFetchedByte_moves h)
  | readByteAck => exact .inl (execReadByteAck_moves h)
  | readByteNak => exact .inl (execReadByteNak_moves h)
  | fillerByteAnswer => exact .inl (execFillerByteAnswer_moves h)
  | viewByteAnswer => exact .inl (execViewByteAnswer_moves h)
  | upstreamBusTimeout => exact .inl (execUpstreamBusTimeout_moves h)
  | closeEnd => exact .inl (execCloseEnd_moves h)
  | stallTimeout => exact .inl (execStallTimeout_moves h)
  | recoveryEnd => exact .inl (execRecoveryEnd_moves h)
  | openingBusClearEnd => exact .inl (execOpeningBusClearEnd_moves h)
  | holdLimitExpiry => exact .inl (execHoldLimitExpiry_moves h)
  | leaseExpiry => exact .inl (execLeaseExpiry_moves h)
  | ownershipIdleTimeout => exact .inl (execOwnershipIdleTimeout_moves h)
  | commitCompletion =>
    rcases execCommitCompletion_cases h with h | ⟨p, hst, hv, ht⟩
    · exact .inl h
    · exact .inr (.commit p hst hv ht)
  | selectView | clearError | setCheckMode | setHoldLimit | configureSegment | recoverSegment | leaseSegment | releaseLease
  | acknowledgeLog | clearCounters | invalidateCursor | setAttentionMask | stageEntry | revertStaging | discardStaging | commit
  | softReset => exact .inl (commandRow_moves h)
  | nakOfByteEnd => exact .inl (execNakOfByteEnd_moves h)

/-- A step lets a moment pass, or it is the event at the front of the queue, on the queue's rest. -/
theorem step_next {s t : State} (h : step s = .next t) :
    t = { s with now := s.now + 1 } ∨ ∃ c rest, exec c (s.setPending rest) = .next t := by
  unfold step at h
  split at h
  · exact .inl (Host.Outcome.next.inj h).symm
  · exact .inr ⟨_, _, h⟩

/-- What a step can do. -/
theorem step_cases {s t : State} (h : step s = .next t) :
    Moves s t ∨ ∃ c rest, Exceptional (s.setPending rest) t c := by
  rcases step_next h with rfl | ⟨c, rest, h⟩
  · exact .inl (.idle s)
  · rcases exec_cases h with h | h
    · exact .inl ((Moves.setPending s rest).trans h)
    · exact .inr ⟨c, rest, h⟩

end Sys2Proof.Machine
end

section
/-! PROOFS. Validation as its rules state it (R15, R16): what it finds, and what a valid table looks like. -/

namespace Sys2Proof.Machine

/-! ## What validation finds -/

/-- Where an entry breaks a condition, there is a first condition that it breaks. -/
theorem exists_first_break {mgmt : Addr7} {t : Table} {k : Fin 32} {r : Reason} (h : breaks mgmt t k r) :
    ∃ r', breaks mgmt t k r' ∧ ∀ r'', r''.place < r'.place → ¬ breaks mgmt t k r'' := by
  induction hn : r.place using Nat.strong_induction_on generalizing r with
  | _ n ih =>
    by_cases hlow : ∃ r'', r''.place < n ∧ breaks mgmt t k r''
    · obtain ⟨r'', hlt, hb⟩ := hlow
      exact ih _ hlt hb rfl
    · push Not at hlow
      exact ⟨r, h, fun r'' hlt => hlow r'' (hn ▸ hlt)⟩

theorem entryFault_eq_none_iff (mgmt : Addr7) (t : Table) (k : Fin 32) :
    entryFault mgmt (t.toList.take k.val) t[k] = none ↔ ∀ r, ¬ breaks mgmt t k r := by
  constructor
  · intro h r hb
    obtain ⟨r', hr'⟩ := exists_first_break hb
    rw [(entryFault_eq_some_iff mgmt t k r').mpr hr'] at h
    exact nomatch h
  · intro h
    cases hf : entryFault mgmt (t.toList.take k.val) t[k] with
    | none => rfl
    | some r => exact absurd ((entryFault_eq_some_iff mgmt t k r).mp hf).1 (h r)

theorem validate_eq_none_iff (mgmt : Addr7) (t : Table) : validate mgmt t = none ↔ ∀ n r, ¬ breaks mgmt t n r := by
  simp only [validate, List.findSome?_eq_none_iff, Option.map_eq_none_iff, entryFault_eq_none_iff, List.mem_finRange, true_implies]

/-- The first number of which `f` answers is the lowest one. -/
theorem findSome?_finRange_eq_some_iff {n : Nat} {α : Type} (f : Fin n → Option α) (b : α) :
    (List.finRange n).findSome? f = some b ↔ ∃ k, f k = some b ∧ ∀ m < k, f m = none := by
  rw [List.findSome?_eq_some_iff]
  constructor
  · rintro ⟨l₁, k, l₂, hl, hk, hnone⟩
    refine ⟨k, hk, fun m hm => hnone m ?_⟩
    have hsorted : (l₁ ++ k :: l₂).Pairwise (· < ·) := hl ▸ List.pairwise_lt_finRange n
    have hafter := (List.pairwise_cons.mp (List.pairwise_append.mp hsorted).2.1).1
    have hmem : m ∈ l₁ ++ k :: l₂ := hl ▸ List.mem_finRange m
    rcases List.mem_append.mp hmem with h | h
    · exact h
    · rcases List.mem_cons.mp h with h | h
      · exact absurd h hm.ne
      · exact absurd (hafter m h) hm.asymm
  · rintro ⟨k, hk, hnone⟩
    obtain ⟨l₁, l₂, hl⟩ := List.append_of_mem (List.mem_finRange k)
    refine ⟨l₁, k, l₂, hl, hk, fun m hm => hnone m ?_⟩
    have hsorted : (l₁ ++ k :: l₂).Pairwise (· < ·) := hl ▸ List.pairwise_lt_finRange n
    exact (List.pairwise_append.mp hsorted).2.2 m hm k (by simp)

theorem validate_eq_some_iff (mgmt : Addr7) (t : Table) (k : Fin 32) (r : Reason) : validate mgmt t = some (k, r) ↔
    breaks mgmt t k r ∧ (∀ r', r'.place < r.place → ¬ breaks mgmt t k r') ∧ ∀ n < k, ∀ r', ¬ breaks mgmt t n r' := by
  have hfound : ∀ n, (entryFault mgmt (t.toList.take n.val) t[n]).map (fun r => (n, r)) = some (k, r) ↔
      n = k ∧ entryFault mgmt (t.toList.take k.val) t[k] = some r := by
    intro n
    rw [Option.map_eq_some_iff]
    constructor
    · rintro ⟨r', hr', he⟩
      obtain ⟨rfl, rfl⟩ := Prod.mk.inj he
      exact ⟨rfl, hr'⟩
    · rintro ⟨rfl, hr⟩
      exact ⟨r, hr, rfl⟩
  rw [validate, findSome?_finRange_eq_some_iff]
  simp only [hfound, Option.map_eq_none_iff, entryFault_eq_none_iff]
  rw [← and_assoc, ← entryFault_eq_some_iff]
  constructor
  · rintro ⟨n, ⟨rfl, hr⟩, hlow⟩
    exact ⟨hr, hlow⟩
  · rintro ⟨hr, hlow⟩
    exact ⟨k, ⟨rfl, hr⟩, hlow⟩

/-! ## Valid tables -/

/-- Two different enabled entries share no port at one upstream address. -/
theorem valid_serves_unique {mgmt : Addr7} {t : Table} (h : validate mgmt t = none) {n k : Fin 32} {p : Port}
    (hn : t[n].enabled = true) (hk : t[k].enabled = true) (hnp : t[n].includes p) (hkp : t[k].includes p)
    (hup : t[n].upAddr = t[k].upAddr) : n = k := by
  have hno := (validate_eq_none_iff mgmt t).mp h
  rcases lt_trichotomy n k with hlt | heq | hlt
  · exact absurd ⟨hk, n, hlt, hn, ⟨p, hnp, hkp⟩, hup⟩ (hno k .duplicate)
  · exact heq
  · exact absurd ⟨hn, k, hlt, hk, ⟨p, hkp, hnp⟩, hup.symm⟩ (hno n .duplicate)

/-- The enabled entries of one target have one width. -/
theorem valid_width_unique {mgmt : Addr7} {t : Table} (h : validate mgmt t = none) {n k : Fin 32} (hn : t[n].enabled = true)
    (hk : t[k].enabled = true) (ht : t[k].target = t[n].target) : t[k].width = t[n].width := by
  have hno := (validate_eq_none_iff mgmt t).mp h
  obtain ⟨hseg, hdown⟩ := Target.mk.inj ht
  by_contra hw
  rcases lt_trichotomy n k with hlt | rfl | hlt
  · exact hno k .widthMismatch ⟨hk, n, hlt, hn, hseg.symm, hdown.symm, Ne.symm hw⟩
  · exact hw rfl
  · exact hno n .widthMismatch ⟨hn, k, hlt, hk, hseg, hdown, hw⟩

/-- An enabled entry of a valid table uses no reserved address and not the management address. -/
theorem valid_addresses {mgmt : Addr7} {t : Table} (h : validate mgmt t = none) {n : Fin 32} (hn : t[n].enabled = true) :
    ¬ isReserved t[n].upAddr ∧ ¬ isReserved t[n].downAddr ∧ t[n].upAddr ≠ mgmt := by
  have hno := (validate_eq_none_iff mgmt t).mp h
  have hport : t[n].ports ≠ .neither := fun hp => hno n .noPort ⟨hn, hp⟩
  exact ⟨fun hr => hno n .reservedAddress ⟨hn, .inl hr⟩, fun hr => hno n .reservedAddress ⟨hn, .inr hr⟩,
    fun hm => hno n .mgmtAddress ⟨hn, hm, hport⟩⟩

/-- A present window of an enabled entry lies in its width's range, low not above high. -/
theorem valid_window {mgmt : Addr7} {t : Table} (h : validate mgmt t = none) {n : Fin 32} (hn : t[n].enabled = true) {w : Window}
    (hw : t[n].hasWindow w) (hz : t[n].width ≠ .zero) :
    w.low.toNat ≤ w.high.toNat ∧ (t[n].width = .one → w.high.toNat ≤ 255) := by
  have hno := (validate_eq_none_iff mgmt t).mp h n .windowBounds
  constructor
  · by_contra hlt
    exact hno ⟨hn, w, hw, hz, .inl (not_le.mp hlt)⟩
  · intro hone
    by_contra hlt
    exact hno ⟨hn, w, hw, hz, .inr ⟨hone, .inr (not_le.mp hlt)⟩⟩

/-- The cleared table is valid under every management address (R2). -/
theorem clearedTable_valid (mgmt : Addr7) : validate mgmt clearedTable = none := by
  rw [validate_eq_none_iff]
  rintro n r ⟨henabled, _⟩
  simp [clearedTable, Entry.cleared] at henabled

end Sys2Proof.Machine
end

section
/-! PROOFS. The cursor map that a commit rebuilds: its keys are those of the new table, and a key that no changed entry names keeps its cursor
(R70 to R72). -/

namespace Sys2Proof.Machine

/-! ## Keys -/

/-- The canonical form of the map with an insertion: the record is there, or its key was taken. -/
theorem mem_insertKey_self (r : CursorRec) (m : List CursorRec) : ∃ x ∈ insertKey r m, x.target = r.target := by
  induction m with
  | nil => exact ⟨r, by simp [insertKey], rfl⟩
  | cons y rest ih =>
    unfold insertKey
    split
    · exact ⟨r, by simp, rfl⟩
    · split
      case isTrue hkey => exact ⟨y, by simp, (Target.key_inj hkey).symm⟩
      case isFalse =>
        obtain ⟨x, hx, ht⟩ := ih
        exact ⟨x, by simp [hx], ht⟩

/-- An insertion takes nothing out of the map. -/
theorem mem_insertKey_of_mem (r : CursorRec) {m : List CursorRec} {x : CursorRec} (h : x ∈ m) : x ∈ insertKey r m := by
  induction m with
  | nil => exact nomatch h
  | cons y rest ih =>
    unfold insertKey
    split
    · exact List.mem_cons_of_mem _ h
    · split
      · exact h
      · rcases List.mem_cons.mp h with rfl | h
        · exact List.mem_cons_self
        · exact List.mem_cons_of_mem _ (ih h)

/-- The record that a rebuilding makes for an enabled entry of width 1 or 2. -/
def keyRecord (m : List CursorRec) (e : Entry) : CursorRec := ⟨e.target, e.width, cursorOf m e.target⟩

/-- The entries that name a key (R70). -/
def Entry.namesKey (e : Entry) : Bool := e.enabled && e.width ≠ .zero

theorem Entry.namesKey_iff (e : Entry) : e.namesKey = true ↔ e.enabled = true ∧ e.width ≠ .zero := by
  simp [Entry.namesKey]

theorem rebuildKeys_eq (t : Table) (m : List CursorRec) :
    rebuildKeys t m = t.toList.foldl (fun acc e => if e.namesKey then insertKey (keyRecord m e) acc else acc) [] := rfl

/-- Every record of a rebuilt map is that of an entry, or was there before. -/
theorem mem_rebuild_fold {m : List CursorRec} (l : List Entry) (acc : List CursorRec) {r : CursorRec}
    (h : r ∈ l.foldl (fun acc e => if e.namesKey then insertKey (keyRecord m e) acc else acc) acc) :
    r ∈ acc ∨ ∃ e ∈ l, e.namesKey = true ∧ r = keyRecord m e := by
  induction l generalizing acc with
  | nil => exact .inl h
  | cons e rest ih =>
    rw [List.foldl_cons] at h
    rcases ih _ h with h | ⟨e', he', hn, hr⟩
    · split at h
      case isTrue hn =>
        rcases mem_insertKey _ _ _ h with rfl | h
        · exact .inr ⟨e, by simp, hn, rfl⟩
        · exact .inl h
      case isFalse => exact .inl h
    · exact .inr ⟨e', by simp [he'], hn, hr⟩

/-- A rebuilding keeps what is in the map, and makes a key for every entry that names one. -/
theorem rebuild_fold_covers {m : List CursorRec} (l : List Entry) (acc : List CursorRec) :
    let u := l.foldl (fun acc e => if e.namesKey then insertKey (keyRecord m e) acc else acc) acc
    (∀ r ∈ acc, r ∈ u) ∧ ∀ e ∈ l, e.namesKey = true → ∃ r ∈ u, r.target = e.target := by
  induction l generalizing acc with
  | nil => exact ⟨fun _ h => h, fun _ h => nomatch h⟩
  | cons e rest ih =>
    obtain ⟨hkeep, hcover⟩ := ih (if e.namesKey then insertKey (keyRecord m e) acc else acc)
    refine ⟨fun r hr => hkeep r ?_, fun e' he' hn => ?_⟩
    · split
      · exact mem_insertKey_of_mem _ hr
      · exact hr
    · rcases List.mem_cons.mp he' with rfl | he'
      · obtain ⟨r, hr, ht⟩ := mem_insertKey_self (keyRecord m e') acc
        exact ⟨r, hkeep r (by simpa [hn] using hr), ht⟩
      · exact hcover e' he' hn

theorem Table.mem_toList (t : Table) (e : Entry) : e ∈ t.toList ↔ ∃ n : Fin 32, t[n] = e := by
  rw [Vector.mem_toList_iff, Vector.mem_iff_getElem]
  exact ⟨fun ⟨i, hi, h⟩ => ⟨⟨i, hi⟩, h⟩, fun ⟨n, h⟩ => ⟨n.val, n.isLt, h⟩⟩

/-- Every record of the rebuilt map is that of an entry that names its key (R71). -/
theorem mem_rebuildKeys {t : Table} {m : List CursorRec} {r : CursorRec} (h : r ∈ rebuildKeys t m) :
    ∃ n : Fin 32, t[n].namesKey = true ∧ r = keyRecord m t[n] := by
  rw [rebuildKeys_eq] at h
  rcases mem_rebuild_fold _ _ h with h | ⟨e, he, hn, hr⟩
  · exact nomatch h
  · obtain ⟨n, rfl⟩ := (Table.mem_toList t e).mp he
    exact ⟨n, hn, hr⟩

/-- Every entry that names a key finds it in the rebuilt map (R71). -/
theorem rebuildKeys_covers {t : Table} (m : List CursorRec) {n : Fin 32} (h : t[n].namesKey = true) :
    ∃ r ∈ rebuildKeys t m, r.target = t[n].target := by
  rw [rebuildKeys_eq]
  exact (rebuild_fold_covers t.toList []).2 _ ((Table.mem_toList t _).mpr ⟨n, rfl⟩) h

/-! ## The map of a commit -/

/-- Whether a table names the keys of a map depends on targets and widths alone. -/
theorem cursorsNamed_congr {t : Table} {m m' : List CursorRec}
    (h : m'.map (fun r => (r.target, r.width)) = m.map (fun r => (r.target, r.width))) (hm : cursorsNamed t m) :
    cursorsNamed t m' := by
  have hsub : ∀ {x y : List CursorRec}, x.map (fun r => (r.target, r.width)) = y.map (fun r => (r.target, r.width)) →
      ∀ r ∈ x, ∃ r' ∈ y, r'.target = r.target ∧ r'.width = r.width := by
    intro x y hxy r hr
    have hmem := List.mem_map_of_mem (f := fun r : CursorRec => (r.target, r.width)) hr
    rw [hxy] at hmem
    obtain ⟨r', hr', he⟩ := List.mem_map.mp hmem
    exact ⟨r', hr', Prod.mk.inj he⟩
  constructor
  · intro r hr
    obtain ⟨r', hr', ht, hw⟩ := hsub h r hr
    rw [← ht, ← hw]
    exact hm.1 r' hr'
  · intro n hn hz
    obtain ⟨r, hr, ht, hw⟩ := hm.2 n hn hz
    obtain ⟨r', hr', ht', hw'⟩ := hsub h.symm r hr
    exact ⟨r', hr', ht'.trans ht, hw'.trans hw⟩

/-- The canonical form, too, depends on the targets alone. -/
theorem cursorsSorted_congr {m m' : List CursorRec}
    (h : m'.map (fun r => (r.target, r.width)) = m.map (fun r => (r.target, r.width))) (hm : cursorsSorted m) :
    cursorsSorted m' := by
  have ht : m'.map CursorRec.target = m.map CursorRec.target := by
    simpa [List.map_map, Function.comp_def] using congrArg (List.map Prod.fst) h
  rw [cursorsSorted_iff] at hm ⊢
  rwa [ht]

/-- The rebuilt map holds exactly the keys that a valid table names, each with its width. -/
theorem rebuildKeys_named {mgmt : Addr7} {t : Table} (m : List CursorRec) (h : validate mgmt t = none) :
    cursorsNamed t (rebuildKeys t m) := by
  constructor
  · intro r hr
    obtain ⟨n, hn, rfl⟩ := mem_rebuildKeys hr
    obtain ⟨henabled, hz⟩ := (Entry.namesKey_iff _).mp hn
    exact ⟨hz, n, henabled, rfl, rfl⟩
  · intro n hn hz
    obtain ⟨r, hr, ht⟩ := rebuildKeys_covers m ((Entry.namesKey_iff _).mpr ⟨hn, hz⟩)
    obtain ⟨k, hk, rfl⟩ := mem_rebuildKeys hr
    exact ⟨_, hr, ht, valid_width_unique h hn ((Entry.namesKey_iff _).mp hk).1 ht⟩

theorem committedCursors_named {mgmt : Addr7} {new : Table} (old : Table) (m : List CursorRec)
    (h : validate mgmt new = none) : cursorsNamed new (committedCursors old new m) :=
  cursorsNamed_congr (clearCursors_keys ..) (rebuildKeys_named m h)

/-- A record of the committed map: that of an entry that names its key, its cursor absent where a changed entry names the target. -/
theorem mem_committedCursors {old new : Table} {m : List CursorRec} {r : CursorRec} (h : r ∈ committedCursors old new m) :
    ∃ n : Fin 32, new[n].namesKey = true ∧ r.target = new[n].target ∧ r.width = new[n].width ∧
      r.cursor = if touched old new r.target then none else cursorOf m r.target := by
  obtain ⟨x, hx, rfl⟩ := List.mem_map.mp h
  obtain ⟨n, hn, rfl⟩ := mem_rebuildKeys hx
  refine ⟨n, hn, ?_⟩
  by_cases ht : touched old new (keyRecord m new[n]).target = true
  · rw [if_pos ht]
    exact ⟨rfl, rfl, (if_pos ht).symm⟩
  · rw [if_neg ht]
    exact ⟨rfl, rfl, (if_neg ht).symm⟩

theorem touched_iff (old new : Table) (x : Target) : touched old new x = true ↔
    ∃ n : Fin 32, old[n] ≠ new[n] ∧ (old[n].target = x ∨ new[n].target = x) := by
  simp [touched, changed]

/-- In a map in canonical form the search for a key finds its one record. -/
theorem findCursor_of_mem {m : List CursorRec} (hs : cursorsSorted m) {x : CursorRec} (hx : x ∈ m) :
    findCursor m x.target = some x := by
  induction m with
  | nil => exact nomatch hx
  | cons y rest ih =>
    obtain ⟨hlt, hrest⟩ := List.pairwise_cons.mp hs
    rcases List.mem_cons.mp hx with rfl | hx
    · simp [findCursor]
    · have hne : y.target ≠ x.target := fun he => by simpa [he] using hlt x hx
      have := ih hrest hx
      simpa [findCursor, hne] using this

/-- In a map in canonical form the cursor of a key is that of its record. -/
theorem cursorOf_of_mem {m : List CursorRec} (hs : cursorsSorted m) {x : CursorRec} (hx : x ∈ m) :
    cursorOf m x.target = x.cursor := by
  simp only [cursorOf, findCursor_of_mem hs hx]

/-- A target that is no key has an absent cursor. -/
theorem cursorOf_of_not_mem {m : List CursorRec} {t : Target} (h : ∀ x ∈ m, x.target ≠ t) : cursorOf m t = none := by
  have hnone : findCursor m t = none := by
    rw [findCursor, List.find?_eq_none]
    simpa using h
  simp [cursorOf, hnone]

/-- A cursor of a key is that of a record with the key. -/
theorem exists_of_cursorOf {m : List CursorRec} {t : Target} {v : Word16} (h : cursorOf m t = some v) :
    ∃ x ∈ m, x.target = t ∧ x.cursor = some v := by
  unfold cursorOf findCursor at h
  split at h
  · rename_i x hx
    exact ⟨x, List.mem_of_find?_eq_some hx, by simpa using List.find?_some hx, h⟩
  · exact nomatch h

/-- A commit keeps every cursor in the range of its width: an untouched key has the width it had (R70, R72). -/
theorem committedCursors_allows {mgmt : Addr7} {old new : Table} {m : List CursorRec} (hold : validate mgmt old = none)
    (hnamed : cursorsNamed old m) (h : ∀ r ∈ m, r.width.allows r.cursor) :
    ∀ r ∈ committedCursors old new m, r.width.allows r.cursor := by
  intro r hr
  obtain ⟨n, hn, ht, hw, hc⟩ := mem_committedCursors hr
  cases hv : r.cursor with
  | none => exact IndexWidth.allows_none _
  | some v =>
    have huntouched : touched old new r.target ≠ true := fun h => by rw [if_pos h] at hc; simp [hv] at hc
    rw [if_neg huntouched, hv] at hc
    obtain ⟨x, hx, hxt, hxc⟩ := exists_of_cursorOf hc.symm
    have hsame : old[n] = new[n] := by
      by_contra hne
      exact huntouched ((touched_iff ..).mpr ⟨n, hne, .inr ht.symm⟩)
    obtain ⟨_, k, hk, hkt, hkw⟩ := hnamed.1 x hx
    have henabled : old[n].enabled = true := by rw [hsame]; exact ((Entry.namesKey_iff _).mp hn).1
    have hwidth : old[k].width = old[n].width :=
      valid_width_unique hold henabled hk (by rw [hkt, hxt, ht, hsame])
    have hallows := h x hx
    rw [← hkw, hwidth, hsame, ← hw, hxc] at hallows
    exact hallows

end Sys2Proof.Machine
end

section
/-! PROOFS. What the exceptional events leave behind, and the invariants that follow for every step: the log and the counts, the management
units, policy and staging, the cursor map, the configurations; and what the policy guarantees of single events. -/

namespace Sys2Proof.Machine

/-! ## The events that are steady, if no moves -/

theorem claimAccepted_steady (p : Port) (s : State) : Steady s (claimAccepted p s) := by
  rcases claimAccepted_spec p s with h | ⟨a, _, _, h⟩
  · rw [h]; exact .refl s
  · rw [h]; exact countEntry_steady _ _ _ fun _ => Counters.accept_wf

/-- After the claim of an accepted access nothing is left that is no move. -/
theorem opened_after_claim_moves (p : Port) (a : Access) (d : Seg) (ninth : Bool) (s : State) :
    Moves (claimAccepted p s) (opened p a d ninth s) := by
  have hack : Moves (claimAccepted p s) (answer p .ack (claimAccepted p s)) := answer_moves ..
  unfold opened
  dsimp only
  cases a.dir
  · cases ninth
    · exact hack.trans (setState_moves ..)
    · exact (hack.trans (beginTransfer_moves _ _ _ _ (by simp))).trans (setState_moves ..)
  · exact hack.trans (setState_moves ..)

theorem opened_steady (p : Port) (a : Access) (d : Seg) (ninth : Bool) (s : State) : Steady s (opened p a d ninth s) :=
  (claimAccepted_steady p s).trans (opened_after_claim_moves p a d ninth s).toSteady

theorem beginTransfer_steady (p : Port) (d : Seg) (x : Transfer) (s : State) : Steady s (beginTransfer p d x s) :=
  have hseg : Steady s (s.setSeg d { s.seg d with transfer := some x }) :=
    .setSeg _ _ _ (fun h => waiters_of_countsWf h d) id
  hseg.trans (holdClock_moves ..).toSteady

/-- The events that are not steady: a valid commit and the resets. -/
inductive Unsteady (s t : State) : Prop where
  | commit (p : Port) (hst : s.staging.state = .committing p) (hv : validate s.mgmtAddr s.staging.image = none)
      (ht : t = completeValid p s)
  | release (ma1 ma0 : Bool) (sclA sclB : Line) (ht : t = Machine.release ma1 ma0 sclA sclB s)
  | resetLow (ht : exec .resetNLow s = .next t)

theorem Exceptional.steady {c : Instr} {s t : State} (h : Exceptional s t c) : Steady s t ∨ Unsteady s t := by
  cases h with
  | dataByte p b a d _ _ ht =>
    subst ht
    exact .inl ((sclSeen_moves p s).toSteady.trans (beginTransfer_steady ..))
  | ack d ninth p a again y dir _ _ _ ht =>
    subst ht
    exact .inl ((endTransfer_moves d s).toSteady.trans (opened_steady ..))
  | commit p hst hv ht => exact .inr (.commit p hst hv ht)
  | powerOn ma1 ma0 a b ht => exact .inr (.release ma1 ma0 a b ht)
  | release ma1 ma0 a b ht => exact .inr (.release ma1 ma0 a b ht)
  | resetLow ht => exact .inr (.resetLow ht)

/-- A step is steady, or it is a valid commit or a reset on the queue's rest. -/
theorem step_steady {s t : State} (h : step s = .next t) : Steady s t ∨ ∃ rest, Unsteady (s.setPending rest) t := by
  rcases step_cases h with h | ⟨c, rest, h⟩
  · exact .inl h.toSteady
  · rcases h.steady with h | h
    · exact .inl ((Moves.setPending s rest).toSteady.trans h)
    · exact .inr ⟨rest, h⟩

/-- An invariant that steady operations and the three exceptions keep, and that the queue has no part in, every step keeps. -/
theorem step_keeps {P : State → Prop} (hqueue : ∀ s rest, P s → P (s.setPending rest)) (hsteady : ∀ s t, Steady s t → P s → P t)
    (hunsteady : ∀ s t, Unsteady s t → P s → P t) {s t : State} (h : step s = .next t) (hs : P s) : P t := by
  rcases step_steady h with h | ⟨rest, h⟩
  · exact hsteady s t h hs
  · exact hunsteady _ t h (hqueue s rest hs)

/-! ## The resets -/

@[simp] theorem endCommit_eq (s : State) :
    ∃ g, endCommit s = s.setStaging g ∧ g.outcome = s.staging.outcome ∧ (∀ p, g.state ≠ .committing p) ∧
      (s.stagingWf → (s.setStaging g).stagingWf) := by
  unfold endCommit
  split
  case h_1 p hst =>
    exact ⟨⟨s.active, .free, .stopped, s.staging.outcome⟩, rfl, rfl, by simp,
      fun _ => ⟨fun _ => ⟨rfl, rfl⟩, fun _ h => (by cases h), fun _ h => (by cases h)⟩⟩
  case h_2 hst => exact ⟨s.staging, rfl, rfl, fun p h => hst p h, id⟩

/-- The state while RESET_N is low: front ends, contexts, units and segments at rest, the stores as before (R38, log 10). -/
theorem resetLow_eq {s t : State} (h : exec .resetNLow s = .next t) :
    ∃ g, (∀ p, g.state ≠ .committing p) ∧ g.outcome = s.staging.outcome ∧ (s.stagingWf → (s.setStaging g).stagingWf) ∧
      t = { s with
        inReset := true
        frontEnds := ⟨.powerOn .high, .powerOn .high⟩
        contexts := ⟨.idle, .idle⟩
        units := ⟨s.units.a.inReset, s.units.b.inReset⟩
        staging := g
        segments := s.segments.map Segment.inReset } := by
  obtain ⟨g, hg, hout, hst, hwf⟩ := endCommit_eq s
  have ht : ({ endCommit s with
      inReset := true
      frontEnds := ⟨.powerOn .high, .powerOn .high⟩
      contexts := ⟨.idle, .idle⟩
      units := ⟨s.units.a.inReset, s.units.b.inReset⟩
      segments := s.segments.map Segment.inReset } : State) = t := Host.Outcome.next.inj h
  rw [hg] at ht
  exact ⟨g, hst, hout, hwf, ht.symm⟩

/-- A segment while RESET_N is low. -/
theorem resetLow_seg {s t : State} (h : exec .resetNLow s = .next t) (d : Seg) : t.seg d = (s.seg d).inReset := by
  obtain ⟨g, _, _, _, rfl⟩ := resetLow_eq h
  simp [State.seg]

/-! ## The log and the counts (O51) -/

theorem reset_log_wf : State.reset.log.wf := Log.powerOn_wf

@[simp] theorem reset_seg (d : Seg) : State.reset.seg d = Segment.powerOn := by
  simp [State.seg, State.reset]

@[simp] theorem reset_ctx (p : Port) : State.reset.ctx p = .idle := by cases p <;> rfl

@[simp] theorem reset_mgmt (p : Port) : State.reset.mgmt p = .powerOn := by cases p <;> rfl

@[simp] theorem reset_counters (n : Fin 32) : State.reset.counters[n] = ⟨0, 0⟩ := by
  simp [State.reset, Counters.zero]

theorem reset_countsWf : State.reset.countsWf := by
  have hport : ∀ p, State.reset.portCountsWf p := fun p =>
    ⟨by cases p <;> decide, by rw [reset_mgmt]; decide, by rw [reset_ctx]; exact fun _ h => nomatch h⟩
  refine ⟨fun n => by rw [reset_counters]; decide, hport .A, hport .B, fun d => ?_, fun _ h => nomatch h⟩
  rw [reset_seg]
  exact fun _ h => nomatch h

/-- The counters after a valid completion are as before, or zero (R12, R23). -/
theorem committedCounters_get (old new : Table) (cs : Vector Counters 32) (n : Fin 32) :
    (committedCounters old new cs)[n] = if old[n] = new[n] then cs[n] else ⟨0, 0⟩ := by
  simp only [committedCounters, changed, Fin.getElem_fin, Vector.getElem_ofFn, Counters.zero]
  by_cases h : old[n.val] = new[n.val] <;> simp [h]

/-- A valid completion is a move of the contexts and a result record, with the stores of the policy written over. -/
theorem completeValid_eq (p : Port) (s : State) :
    completeValid p s = writeCommitResult p .done { detachContexts (detachedByCommit s.active s.staging.image) s with
      active := s.staging.image
      generation := s.generation + 1
      counters := committedCounters s.active s.staging.image s.counters
      cursors := committedCursors s.active s.staging.image s.cursors
      staging := { s.staging with outcome := .done, state := .free, timer := .stopped } } := rfl

theorem completeValid_countsWf (p : Port) {s : State} (h : s.countsWf) : (completeValid p s).countsWf := by
  obtain ⟨_, hA, hB, hw, hr⟩ := (detachContexts_moves (detachedByCommit s.active s.staging.image) s).counts h
  refine (writeCommitResult_moves ..).counts ⟨fun n => ?_, hA, hB, hw, hr⟩
  show ((committedCounters _ _ s.counters)[n]).wf
  rw [committedCounters_get]
  split
  · exact h.1 n
  · exact ⟨Nat.zero_le _, Nat.zero_le _⟩

theorem Unsteady.log {s t : State} (h : Unsteady s t) (hs : s.log.wf) : t.log.wf := by
  cases h with
  | commit p _ _ ht => subst ht; exact hs
  | release ma1 ma0 a b ht => subst ht; exact reset_log_wf
  | resetLow ht =>
    obtain ⟨g, _, _, _, rfl⟩ := resetLow_eq ht
    exact hs

theorem Unsteady.counts {s t : State} (h : Unsteady s t) (hs : s.countsWf) : t.countsWf := by
  cases h with
  | commit p _ _ ht => subst ht; exact completeValid_countsWf p hs
  | release ma1 ma0 a b ht => subst ht; exact reset_countsWf
  | resetLow ht =>
    have hseg := resetLow_seg ht
    obtain ⟨g, _, _, _, rfl⟩ := resetLow_eq ht
    obtain ⟨hc, ⟨hA, hA', _⟩, ⟨hB, hB', _⟩, _, hr⟩ := hs
    refine ⟨hc, ⟨hA, hA', fun _ h => nomatch h⟩, ⟨hB, hB', fun _ h => nomatch h⟩, fun d => ?_, hr⟩
    rw [hseg]
    exact fun _ h => nomatch h

/-- Settles O51: steady operations keep both, and so do a valid commit and the resets. -/
theorem stepKeepsLogAndCounts : Obligations.StepKeepsLogAndCounts := fun _ _ h =>
  ⟨step_keeps (P := fun s => s.log.wf) (fun _ _ => id) (fun _ _ h => h.log) (fun _ _ h => h.log) h,
    step_keeps (P := State.countsWf) (fun _ _ => id) (fun _ _ h => h.counts) (fun _ _ h => h.counts) h⟩

/-! ## The management units (O52) -/

theorem reset_checkWf : State.reset.checkWf := ⟨MgmtUnit.powerOn_checkWf, MgmtUnit.powerOn_checkWf⟩

theorem reset_framesWf : State.reset.framesWf := ⟨fun _ h => (nomatch h), fun _ h => nomatch h⟩

theorem Unsteady.checks {s t : State} (h : Unsteady s t) (hs : s.checkWf) : t.checkWf := by
  cases h with
  | commit p _ _ ht =>
    subst ht
    exact (writeCommitResult_moves ..).checks ((detachContexts_moves (detachedByCommit s.active s.staging.image) s).checks hs)
  | release ma1 ma0 a b ht => subst ht; exact reset_checkWf
  | resetLow ht =>
    obtain ⟨g, _, _, _, rfl⟩ := resetLow_eq ht
    exact hs

theorem Unsteady.frames {s t : State} (h : Unsteady s t) (hs : s.framesWf) : t.framesWf := by
  cases h with
  | commit p _ _ ht =>
    subst ht
    exact (writeCommitResult_moves ..).frames ((detachContexts_moves (detachedByCommit s.active s.staging.image) s).frames hs)
  | release ma1 ma0 a b ht => subst ht; exact ⟨fun _ h => (nomatch h), fun _ h => nomatch h⟩
  | resetLow ht =>
    obtain ⟨g, _, _, _, rfl⟩ := resetLow_eq ht
    exact ⟨fun _ h => (nomatch h), fun _ h => nomatch h⟩

/-- Settles O52: every byte and every end of a frame keeps both, and a reset leaves no frame and a fresh check state. -/
theorem stepKeepsManagementUnits : Obligations.StepKeepsManagementUnits := fun _ _ h =>
  ⟨step_keeps (P := State.checkWf) (fun _ _ => id) (fun _ _ h => h.checks) (fun _ _ h => h.checks) h,
    step_keeps (P := State.framesWf) (fun _ _ => id) (fun _ _ h => h.frames) (fun _ _ h => h.frames) h⟩

/-! ## The policy and the staging unit (O53) -/

theorem Steady.mgmtAddr {s t : State} (h : Steady s t) : t.mgmtAddr = s.mgmtAddr := by
  simp [State.mgmtAddr, h.straps]

theorem Steady.activeValid {s t : State} (h : Steady s t) (hs : s.activeValid) : t.activeValid := by
  rw [State.activeValid, h.mgmtAddr, h.active]
  exact hs

theorem reset_stagingWf : State.reset.stagingWf :=
  ⟨fun _ => ⟨rfl, rfl⟩, fun _ h => (by cases h), fun _ h => (by cases h)⟩

theorem Unsteady.activeValid {s t : State} (h : Unsteady s t) (hs : s.activeValid) : t.activeValid := by
  cases h with
  | commit p _ hv ht => subst ht; exact hv
  | release ma1 ma0 a b ht => subst ht; exact clearedTable_valid _
  | resetLow ht =>
    obtain ⟨g, _, _, _, rfl⟩ := resetLow_eq ht
    exact hs

theorem Unsteady.staging {s t : State} (h : Unsteady s t) (hs : s.stagingWf) : t.stagingWf := by
  cases h with
  | commit p _ hv ht => subst ht; exact ⟨fun _ => ⟨rfl, rfl⟩, fun _ h => (by cases h), fun _ h => (by cases h)⟩
  | release ma1 ma0 a b ht => subst ht; exact reset_stagingWf
  | resetLow ht =>
    obtain ⟨g, _, _, hg, rfl⟩ := resetLow_eq ht
    exact hg hs

/-- Settles O53: only a valid commit changes the table, to an image that validation passed, and what validation finds is what its rules say. -/
theorem stepKeepsThePolicyValid : Obligations.StepKeepsThePolicyValid := by
  refine ⟨fun s t hv hst h => ⟨?_, ?_⟩, fun mgmt t => ⟨validate_eq_some_iff mgmt t, validate_eq_none_iff mgmt t, fun hv => ?_⟩⟩
  · exact step_keeps (P := State.activeValid) (fun _ _ => id) (fun _ _ h => h.activeValid) (fun _ _ h => h.activeValid) h hv
  · exact step_keeps (P := State.stagingWf) (fun _ _ => id) (fun _ _ h => h.staging) (fun _ _ h => h.staging) h hst
  · refine ⟨fun n k p => valid_serves_unique hv, fun n hn => ?_⟩
    obtain ⟨hup, hdown, hmgmt⟩ := valid_addresses hv hn
    exact ⟨hup, hdown, hmgmt, fun k hk ht => valid_width_unique hv hn hk ht, fun w hw hz => valid_window hv hn hw hz⟩

/-! ## The cursor map (O54) -/

theorem Steady.cursorsWf {s t : State} (h : Steady s t) (hs : s.cursorsWf) : t.cursorsWf := by
  obtain ⟨hsorted, hnamed⟩ := hs
  refine ⟨cursorsSorted_congr h.keys hsorted, ?_⟩
  rw [h.active]
  exact cursorsNamed_congr h.keys hnamed

/-- No entry of the cleared table names a key, and the map after reset is empty. -/
theorem reset_cursorsWf : State.reset.cursorsWf := by
  refine ⟨List.Pairwise.nil, fun _ h => (nomatch h), fun n hn => ?_⟩
  simp [State.reset, clearedTable, Entry.cleared] at hn

theorem Unsteady.cursorsWf {s t : State} (h : Unsteady s t) (hs : s.cursorsWf) : t.cursorsWf := by
  cases h with
  | commit p _ hv ht =>
    subst ht
    exact ⟨committedCursors_sorted .., committedCursors_named s.active s.cursors hv⟩
  | release ma1 ma0 a b ht => subst ht; exact reset_cursorsWf
  | resetLow ht =>
    obtain ⟨g, _, _, _, rfl⟩ := resetLow_eq ht
    exact hs

theorem reset_indexesWf : State.reset.indexesWf := ⟨fun _ h => (nomatch h), fun _ h => (nomatch h), fun _ h => nomatch h⟩

theorem Unsteady.indexes {s t : State} (h : Unsteady s t) (hv : s.activeValid) (hc : s.cursorsWf) (hs : s.indexesWf) :
    t.indexesWf := by
  cases h with
  | commit p _ _ ht =>
    subst ht
    obtain ⟨_, hA, hB⟩ := (detachContexts_moves (detachedByCommit s.active s.staging.image) s).indexes hs
    exact ⟨committedCursors_allows hv hc.2 hs.1, hA, hB⟩
  | release ma1 ma0 a b ht => subst ht; exact ⟨fun _ h => (nomatch h), fun _ h => (nomatch h), fun _ h => nomatch h⟩
  | resetLow ht =>
    obtain ⟨g, _, _, _, rfl⟩ := resetLow_eq ht
    exact ⟨hs.1, fun _ h => (nomatch h), fun _ h => nomatch h⟩

/-- Settles O54: steady operations keep keys and widths, and a commit rebuilds them from a valid table. -/
theorem stepKeepsTheCursorKeys : Obligations.StepKeepsTheCursorKeys := by
  intro s t hv hc h
  refine ⟨step_keeps (P := State.cursorsWf) (fun _ _ => id) (fun _ _ h => h.cursorsWf) (fun _ _ h => h.cursorsWf) h hc, ?_⟩
  rcases step_steady h with h | ⟨rest, h⟩
  · exact h.indexes
  · exact h.indexes (s := s.setPending rest) hv hc

/-! ## Configurations (O55) -/

theorem Unsteady.configs {s t : State} (h : Unsteady s t) (hs : s.configsWf) : t.configsWf := by
  cases h with
  | commit p _ _ ht => subst ht; exact hs
  | release ma1 ma0 a b ht =>
    subst ht
    intro d
    have : (Machine.release ma1 ma0 a b s).seg d = State.reset.seg d := rfl
    rw [this, reset_seg]
    exact Segment.configWf_of_none rfl fun _ => rfl
  | resetLow ht =>
    intro d
    rw [resetLow_seg ht d]
    obtain ⟨hpend, hlease⟩ := hs d
    refine ⟨fun h => ?_, fun h => hlease ?_⟩
    · rcases hpend h with hst | hst <;> simp [Segment.inReset, hst]
    · by_cases hst : (s.seg d).state = .held
      · simp [Segment.inReset, hst] at h
      · simpa [Segment.inReset, hst] using h

theorem reset_configsWf : State.reset.configsWf := fun d => by
  rw [reset_seg]
  exact Segment.configWf_of_none rfl fun _ => rfl

/-- Settles O55: each update of a segment keeps its configuration in form. -/
theorem stepKeepsConfigurations : Obligations.StepKeepsConfigurations := fun _ _ hs h =>
  step_keeps (P := State.configsWf) (fun _ _ => id) (fun _ _ h => h.configs) (fun _ _ h => h.configs) h hs

/-! ## What the policy guarantees (O57, O58, O59) -/

/-- The next written byte of the access lies inside its write window (R50). -/
abbrev Access.writesInside (a : Access) : Prop :=
  a.copy.writeWin.present = true ∧
    (a.copy.width = .zero ∨ ∃ i ∈ a.cursor, a.copy.writeWin.low.toNat ≤ i.toNat ∧ i.toNat ≤ a.copy.writeWin.high.toNat)

/-- The length limit allows the access one more data byte (R9). -/
abbrev Access.limitAllows (a : Access) : Prop := a.copy.limit = 0#8 ∨ a.count + 1 ≤ a.copy.limit.toNat

theorem withinLimit_iff (a : Access) : withinLimit a.copy (a.count + 1) = true ↔ a.limitAllows := by
  simp only [withinLimit, Bool.or_eq_true, decide_eq_true_eq]
  exact Iff.rfl

/-- The window comes first among the checks of a written data byte, the limit last (R50). -/
theorem writeCheck_cases (a : Access) :
    (a.writesInside ∧ a.limitAllows ∧ writeCheck a = none) ∨ (¬ a.writesInside ∧ writeCheck a = some .writeWindow) ∨
      (a.writesInside ∧ ¬ a.limitAllows ∧ writeCheck a = some .length) := by
  have hlimit := withinLimit_iff a
  have houtside : ¬ a.writesInside → writeCheck a = some .writeWindow := by
    intro h
    unfold writeCheck
    cases hp : a.copy.writeWin.present
    · simp
    · cases hc : a.cursor <;> simp_all [Access.writesInside, Window.covers]
  have hinside : a.writesInside → writeCheck a = if withinLimit a.copy (a.count + 1) then none else some .length := by
    rintro ⟨hp, hz | ⟨i, hi, hlow, hhigh⟩⟩
    · simp [writeCheck, hp, hz]
    · have hi' : a.cursor = some i := hi
      simp [writeCheck, hp, hi', Window.covers, hlow, hhigh]
  by_cases hin : a.writesInside
  · by_cases hl : a.limitAllows
    · exact .inl ⟨hin, hl, by rw [hinside hin, if_pos (hlimit.mpr hl)]⟩
    · exact .inr (.inr ⟨hin, hl, by rw [hinside hin, if_neg (hl ∘ hlimit.mp)]⟩)
  · exact .inr (.inl ⟨hin, houtside hin⟩)

/-- The checks of a data byte pass only inside the write window and within the limit (R50). -/
theorem writeCheck_eq_none {a : Access} (h : writeCheck a = none) : a.writesInside ∧ a.limitAllows := by
  rcases writeCheck_cases a with ⟨hin, hl, _⟩ | ⟨_, hw⟩ | ⟨_, _, hl⟩
  · exact ⟨hin, hl⟩
  · rw [hw] at h; exact nomatch h
  · rw [hl] at h; exact nomatch h

theorem beginTransfer_seg (p : Port) (d e : Seg) (x : Transfer) (s : State) :
    (beginTransfer p d x s).seg e = if e = d then { s.seg d with transfer := some x } else s.seg e := by
  split
  case isTrue h => subst h; simp [beginTransfer, holdClock]
  case isFalse h => simp [beginTransfer, holdClock, State.setSeg_seg_ne _ _ _ _ h]

/-- No operation on a target's ACK installs a data byte. -/
theorem opened_bytes (p : Port) (a : Access) (d : Seg) (ninth : Bool) (s : State) (e : Seg) (b : Byte)
    (h : ((opened p a d ninth s).seg e).transfer = some (.dataByte b)) : (s.seg e).transfer = some (.dataByte b) := by
  have := (opened_after_claim_moves p a d ninth s).bytes e b h
  rcases claimAccepted_spec p s with he | ⟨_, _, _, he⟩
  · rwa [he] at this
  · rw [he] at this; exact this

/-- Settles O57: the forwarding of a checked data byte is the one event that installs one. -/
theorem noDataByteOutsideThePolicy : Obligations.NoDataByteOutsideThePolicy := by
  intro c s t d b h hafter hbefore
  rcases exec_cases h with h | h
  · exact absurd (h.bytes d b hafter) hbefore
  cases h with
  | dataByte p b' a e hacc hcheck ht =>
    subst ht
    obtain ⟨hst, ha, hheld⟩ := hacc
    rw [beginTransfer_seg] at hafter
    by_cases hde : d = e
    · subst hde
      simp only [if_true, Option.some.injEq, Transfer.dataByte.injEq] at hafter
      subst hafter
      obtain ⟨⟨hwin, hindex⟩, hlimit⟩ := writeCheck_eq_none hcheck
      exact ⟨p, a, rfl, hst, ha, hheld, hwin, hindex.resolve_left, hlimit.resolve_left⟩
    · rw [if_neg hde] at hafter
      exact absurd hafter hbefore
  | ack e ninth p a again y dir _ _ _ ht =>
    subst ht
    exact absurd ((endTransfer_moves e s).bytes d b (opened_bytes _ _ _ _ _ _ _ hafter)) hbefore
  | commit p _ _ ht => subst ht; exact absurd hafter hbefore
  | powerOn ma1 ma0 x y ht =>
    subst ht
    have : ((release ma1 ma0 x y s).seg d).transfer = (State.reset.seg d).transfer := rfl
    rw [this, reset_seg] at hafter
    exact nomatch hafter
  | release ma1 ma0 x y ht =>
    subst ht
    have : ((release ma1 ma0 x y s).seg d).transfer = (State.reset.seg d).transfer := rfl
    rw [this, reset_seg] at hafter
    exact nomatch hafter
  | resetLow ht =>
    rw [resetLow_seg ht] at hafter
    exact nomatch hafter

/-- Only the claim of an access that is not detached raises an accepted counter (R20, R22). -/
theorem claimAccepted_raises {p : Port} {s : State} {n : Fin 32}
    (h : s.counters[n].accepted < (claimAccepted p s).counters[n].accepted) :
    ∃ a, (s.ctx p).access = some a ∧ a.entryNo = n ∧ a.detached = false := by
  rcases claimAccepted_spec p s with he | ⟨a, ha, hdet, he⟩
  · rw [he] at h
    exact absurd h (lt_irrefl _)
  · refine ⟨a, ha, ?_, hdet⟩
    by_contra hne
    rw [he, countEntry_counters, if_neg hne] at h
    exact absurd h (lt_irrefl _)

/-- Settles O58: the claim at the target's ACK is the one operation that raises an accepted counter. -/
theorem acceptedOnlyAfterTheTargetsAck : Obligations.AcceptedOnlyAfterTheTargetsAck := by
  intro c s t n h hlt
  rcases exec_cases h with h | h
  · exact absurd (h.accepted n) (not_le.mpr hlt)
  cases h with
  | dataByte p b a d _ _ ht => subst ht; exact absurd hlt (lt_irrefl _)
  | ack d ninth p a again y dir hx hholder hacc ht =>
    subst ht
    have hclaim : s.counters[n].accepted < (claimAccepted p (endTransfer d s)).counters[n].accepted :=
      hlt.trans_le ((opened_after_claim_moves p a d ninth (endTransfer d s)).accepted n)
    obtain ⟨a', ha', hn, hdet⟩ := claimAccepted_raises (s := endTransfer d s) hclaim
    obtain rfl : a = a' := Option.some.inj (hacc.symm.trans ha')
    exact ⟨d, p, a, ninth, rfl, ⟨again, y, dir, hx⟩, hholder, hacc, hn, hdet⟩
  | commit p _ _ ht =>
    subst ht
    have hle : ((committedCounters s.active s.staging.image s.counters)[n]).accepted ≤ s.counters[n].accepted := by
      rw [committedCounters_get]
      split
      · exact le_rfl
      · exact Nat.zero_le _
    exact absurd hle (not_le.mpr hlt)
  | powerOn ma1 ma0 x y ht =>
    subst ht
    have : (release ma1 ma0 x y s).counters[n] = State.reset.counters[n] := rfl
    rw [this, reset_counters] at hlt
    exact absurd hlt (Nat.not_lt_zero _)
  | release ma1 ma0 x y ht =>
    subst ht
    have : (release ma1 ma0 x y s).counters[n] = State.reset.counters[n] := rfl
    rw [this, reset_counters] at hlt
    exact absurd hlt (Nat.not_lt_zero _)
  | resetLow ht =>
    obtain ⟨g, _, _, _, rfl⟩ := resetLow_eq ht
    exact absurd hlt (lt_irrefl _)

/-- Settles O59: steady operations leave the policy alone, a valid commit installs the image, and a release clears it. -/
theorem policyChangesOnlyByCommit : Obligations.PolicyChangesOnlyByCommit := by
  intro c s t h hchange
  have hsteady : ¬ Steady s t := by
    intro hs
    rcases hchange with h | h
    · exact h hs.active
    · exact h hs.generation
  rcases exec_cases h with h | h
  · exact absurd h.toSteady hsteady
  cases h with
  | dataByte p b a d hacc hcheck ht =>
    subst ht
    exact absurd ((sclSeen_moves p s).toSteady.trans (beginTransfer_steady ..)) hsteady
  | ack d ninth p a again y dir _ _ _ ht =>
    subst ht
    exact absurd ((endTransfer_moves d s).toSteady.trans (opened_steady ..)) hsteady
  | commit p hst hv ht =>
    subst ht
    exact .inl ⟨rfl, ⟨p, hst⟩, hv, rfl, rfl⟩
  | powerOn ma1 ma0 x y ht =>
    subst ht
    exact .inr ⟨ma1, ma0, x, y, .inl rfl, rfl, rfl⟩
  | release ma1 ma0 x y ht =>
    subst ht
    exact .inr ⟨ma1, ma0, x, y, .inr rfl, rfl, rfl⟩
  | resetLow ht =>
    obtain ⟨g, _, _, _, rfl⟩ := resetLow_eq ht
    rcases hchange with h | h <;> exact absurd rfl h

/-! ## Reset meets the invariants (O50) -/

/-- A port with an idle context on a FREE bus, no frame and no read, is in form. -/
theorem portWf_of_rest {t : State} {p : Port} (hctx : t.ctx p = .idle) (hhold : (t.fe p).hold = false)
    (hbus : (t.fe p).bus = .free) (hframe : (t.mgmt p).frame = none) (hread : (t.mgmt p).reading = none) : t.portWf p := by
  refine ⟨by rw [hctx]; rfl, by simp [State.holdExpected, hctx, hhold, Context.idle], by simp [State.readWf, hctx, Context.idle],
    by simp [hhold], fun _ => hbus, by simp [hframe, hctx, Context.idle], by simp [hread, hctx, Context.idle],
    fun _ => by rw [hctx]; rfl, fun _ => .inl (by rw [hctx]; rfl), fun h => by simp [hctx, Context.idle] at h⟩

/-- A segment that no context holds, waits for or requests agrees with idle contexts. -/
theorem segWf_of_rest {t : State} {d : Seg} (hctx : ∀ p, t.ctx p = .idle) (hwf : (t.seg d).wf) (hholder : (t.seg d).holder = none)
    (hwait : (t.seg d).waiters = []) (hreq : (t.seg d).requests = []) (hres : (t.seg d).resume = none) : t.segWf d := by
  refine ⟨hwf, fun p _ => by simp [hholder, hctx, Context.idle, Context.segment?], ⟨by simp [hwait], fun p _ => ?_⟩,
    ⟨by simp [hreq], fun p _ => ?_⟩, fun r hr => by simp [hres] at hr, fun _ w hw => by simp [hwait] at hw, ?_⟩
  · simp [hwait, hctx, Context.idle]
  · simp [hreq, hctx, Context.idle]
  · simp [State.transfersFit, hholder]

theorem Segment.powerOn_wf : Segment.powerOn.wf := by decide

theorem reset_trafficWf : State.reset.trafficWf := by
  have hport : ∀ p, State.reset.portWf p := fun p =>
    portWf_of_rest (reset_ctx p) (by cases p <;> rfl) (by cases p <;> rfl) (by rw [reset_mgmt]; rfl) (by rw [reset_mgmt]; rfl)
  refine ⟨hport .A, hport .B, fun d => segWf_of_rest reset_ctx ?_ ?_ ?_ ?_ ?_⟩ <;> rw [reset_seg]
  · exact Segment.powerOn_wf
  all_goals rfl

/-- Settles O50: each invariant on the state after reset. -/
theorem resetSatisfiesTheInvariants : Obligations.ResetSatisfiesTheInvariants :=
  ⟨reset_log_wf, reset_countsWf, reset_checkWf, reset_framesWf, clearedTable_valid _, reset_stagingWf, reset_cursorsWf,
    reset_indexesWf, reset_configsWf, reset_trafficWf⟩

end Sys2Proof.Machine
end

section
/-! PROOFS. The shared operations as updates of State, in the words of the statements: front ends, records and claims, hand-backs and closes. -/

namespace Sys2Proof.Machine

/-! ## Front ends -/

theorem sclSeen_eq (p : Port) (s : State) : sclSeen p s = s.setFe p (s.fe p).clocked := rfl

theorem answer_eq (p : Port) (a : Ack) (s : State) : answer p a s = s.setFe p ((s.fe p).answering a) := by
  cases a <;> rfl

theorem holdClock_eq (p : Port) (s : State) : holdClock p s = s.setFe p (s.fe p).holding := rfl

theorem deliver_eq (p : Port) (b : Byte) (s : State) : deliver p b s = s.setFe p ((s.fe p).sending b) := rfl

theorem releaseLines_eq (p : Port) (s : State) : releaseLines p s = s.setFe p (s.fe p).silent := rfl

theorem startCondition_eq (p : Port) (s : State) :
    startCondition p s = s.setFe p { s.fe p with bus := .active, byte := .none, role := .address, drive := .released } := rfl

theorem stopCondition_eq (p : Port) (s : State) :
    stopCondition p s = s.setFe p { s.fe p with bus := .free, byte := .none, role := .address, drive := .released } := rfl

theorem resetFrontEnd_eq (p : Port) (s : State) :
    resetFrontEnd p s = s.setFe p ⟨.free, .none, .address, false, .released, .spent⟩ := rfl

theorem setRole_sclSeen (p : Port) (dir : Dir) (s : State) :
    setRole p dir (sclSeen p s) = s.setFe p ((s.fe p).addressed dir) := by
  cases dir <;> simp [setRole, sclSeen, FrontEnd.addressed]

/-- A hold begins with the timer stopped, whatever it was. -/
@[simp] theorem FrontEnd.clocked_holding (f : FrontEnd) : f.clocked.holding = f.holding := rfl

/-! ## Contexts -/

theorem setState_eq (p : Port) (st : CtxState) (s : State) : setState p st s = s.setCtx p { s.ctx p with state := st } := rfl

theorem toIdle_eq (p : Port) (s : State) : toIdle p s = s.setCtx p .idle := rfl

/-! ## Records and claims -/

theorem record_eq {p : Port} {s : State} {a : Access} (h : (s.ctx p).access = some a) (k : Kind) (i : Option Word16) (o : Nat) :
    record p k i o s = s.setLog (logged s p a k i o) := by
  simp only [record, h, logged, accessReport, hand]
  split <;> rfl

theorem claimAccepted_eq {p : Port} {s : State} {a : Access} (h : (s.ctx p).access = some a) :
    claimAccepted p s = s.setCounters (accepted s a) := by
  simp only [claimAccepted, h, accepted]
  cases a.detached
  · simp only [Bool.false_eq_true, if_false, countEntry, Counters.accept, satInc_eq]
  · rfl

theorem penalize_eq {p : Port} {s : State} {a : Access} (h : (s.ctx p).access = some a) (k : Kind) (i : Option Word16) (o : Nat) :
    penalize p k i o s = (s.setLog (logged s p a k i o)).setCounters (denied s a) := by
  rw [penalize, record_eq h, claimDenied_eq (a := a) (by simpa using h)]
  rfl

/-- A refusal of the access `a`: its record, its denied claim, the NAK, and REFUSING. -/
theorem refuse_offset_eq {p : Port} {s : State} {a : Access} (h : (s.ctx p).access = some a) (k : Kind) (i : Option Word16)
    (o : Nat) : refuse p k i o s = (((s.setLog (logged s p a k i o)).setCounters (denied s a)).setFe p
      ((s.fe p).answering .nak)).setCtx p { s.ctx p with state := .refusing } := by
  rw [refuse, record_eq h, refuseSilently_eq (a := a) (by simpa using h)]
  rfl

theorem recordIndex_eq (a : Access) : recordIndex a = if a.copy.width = .zero then none else a.cursor := by
  unfold recordIndex
  cases a.copy.width <;> simp

/-! ## Hand-backs and closes -/

theorem handBack_eq (a : Access) (v : Option Word16) (s : State) : handBack a v s = s.setCursors (handed s a v) := by
  unfold handBack handed
  cases a.detached
  · cases a.copy.width <;> simp
  · simp

theorem closeRequest_eq (d : Seg) (tail : Option Transfer) (s : State) :
    closeRequest d tail s = s.setSeg d ((s.seg d).closed tail) := rfl

theorem giveUp_eq {p : Port} {s : State} {a : Access} (h : (s.ctx p).access = some a) (v : Option Word16) :
    giveUp p v s = (s.setCursors (handed s a v)).setCtx p { s.ctx p with access := some (a.ended v) } := by
  simp only [giveUp, h, handBack_eq, Access.ended]

/-- The release of the segment that an access holds: hand-back, and the close. -/
theorem letGo_eq {p : Port} {s : State} {a : Access} {d : Seg} (h : (s.ctx p).access = some a) (hd : a.held = some d)
    (v : Option Word16) (tail : Option Transfer) : letGo p v tail s =
      ((s.setCursors (handed s a v)).setCtx p { s.ctx p with access := some (a.ended v) }).setSeg d ((s.seg d).closed tail) := by
  simp only [letGo, h, hd, giveUp_eq h, closeRequest_eq, State.setCtx_seg, State.setCursors_seg]

/-- What an access hands back depends on the cursor map alone. -/
theorem handed_congr {s t : State} (a : Access) (v : Option Word16) (h : t.cursors = s.cursors) : handed t a v = handed s a v := by
  rw [handed, handed, h]

@[simp] theorem handed_setFe (s : State) (p : Port) (f : FrontEnd) (a : Access) (v : Option Word16) :
    handed (s.setFe p f) a v = handed s a v := rfl

@[simp] theorem handed_setLog (s : State) (l : Log) (a : Access) (v : Option Word16) :
    handed (s.setLog l) a v = handed s a v := rfl

@[simp] theorem handed_setCounters (s : State) (cs : Vector Counters 32) (a : Access) (v : Option Word16) :
    handed (s.setCounters cs) a v = handed s a v := rfl

@[simp] theorem handed_setCtx (s : State) (p : Port) (c : Context) (a : Access) (v : Option Word16) :
    handed (s.setCtx p c) a v = handed s a v := rfl

@[simp] theorem handed_setSeg (s : State) (d : Seg) (g : Segment) (a : Access) (v : Option Word16) :
    handed (s.setSeg d g) a v = handed s a v := rfl

@[simp] theorem logged_setFe (s : State) (p q : Port) (f : FrontEnd) (a : Access) (k : Kind) (i : Option Word16) (o : Nat) :
    logged (s.setFe p f) q a k i o = logged s q a k i o := rfl

@[simp] theorem logged_setSeg (s : State) (d : Seg) (g : Segment) (q : Port) (a : Access) (k : Kind) (i : Option Word16) (o : Nat) :
    logged (s.setSeg d g) q a k i o = logged s q a k i o := rfl

@[simp] theorem logged_setCtx (s : State) (p q : Port) (c : Context) (a : Access) (k : Kind) (i : Option Word16) (o : Nat) :
    logged (s.setCtx p c) q a k i o = logged s q a k i o := rfl

@[simp] theorem denied_setFe (s : State) (p : Port) (f : FrontEnd) (a : Access) : denied (s.setFe p f) a = denied s a := rfl

@[simp] theorem denied_setSeg (s : State) (d : Seg) (g : Segment) (a : Access) : denied (s.setSeg d g) a = denied s a := rfl

@[simp] theorem denied_setCtx (s : State) (p : Port) (c : Context) (a : Access) : denied (s.setCtx p c) a = denied s a := rfl

@[simp] theorem accepted_setSeg (s : State) (d : Seg) (g : Segment) (a : Access) : accepted (s.setSeg d g) a = accepted s a := rfl

end Sys2Proof.Machine
end

section
/-! PROOFS. Conditions on an upstream port (R25, R62, R63, R142, R151) and the upstream port reset (R33 to R36). -/

namespace Sys2Proof.Machine

/-! ## Conditions and port resets on the state before them -/

theorem startCondition_setFe (p : Port) (s : State) : startCondition p (sclSeen p s) = s.setFe p (s.fe p).started := by
  simp [startCondition_eq, sclSeen_eq, FrontEnd.started, FrontEnd.clocked]

theorem stopCondition_setFe (p : Port) (s : State) : stopCondition p (sclSeen p s) = s.setFe p (s.fe p).stoppedBy := by
  simp [stopCondition_eq, sclSeen_eq, FrontEnd.stoppedBy, FrontEnd.clocked]

theorem advanceView_setFe (p : Port) (r : ReadPosition) (s : State) (f : FrontEnd) :
    advanceView p r (s.setFe p f) = (advanceView p r s).setFe p f := by
  simp [advanceView_eq]

@[simp] theorem advanceView_fe (p q : Port) (r : ReadPosition) (s : State) : (advanceView p r s).fe q = s.fe q := by
  rw [advanceView_eq]; rfl

/-- A view byte is cut off or not whether or not its last bit has been seen. -/
theorem cutOff_sclSeen (p : Port) (eighth : Bool) (s : State) : cutOff p eighth (sclSeen p s) = sclSeen p (cutOff p eighth s) := by
  have hst : ((sclSeen p s).ctx p).state = (s.ctx p).state := rfl
  have hr : ((sclSeen p s).mgmt p).reading = (s.mgmt p).reading := rfl
  have hb : ((sclSeen p s).fe p).byte = (s.fe p).byte := by simp [sclSeen_eq, FrontEnd.clocked]
  unfold cutOff
  rw [hst, hr, hb]
  split
  · cases eighth
    · rfl
    · simp only [if_true, sclSeen_eq, advanceView_setFe, advanceView_fe]
  · rfl

@[simp] theorem cutOff_fe (p q : Port) (eighth : Bool) (s : State) : (cutOff p eighth s).fe q = s.fe q := by
  unfold cutOff
  split
  · cases eighth
    · rfl
    · simp
  · rfl

theorem exec_upstreamStart_eq (p : Port) (sda : Line) (eighth : Bool) (s : State) :
    exec (.upstreamStart p sda eighth) s = exec (.repeatedStart p sda eighth) s := rfl

/-- A START on a FREE bus begins a transaction. -/
theorem exec_start_free {p : Port} (sda : Line) (eighth : Bool) {s : State} (ho : s.open p) (hb : (s.fe p).bus = .free) :
    exec (.repeatedStart p sda eighth) s = .next (s.setFe p (s.fe p).started) := by
  have hbus : ((sclSeen p s).fe p).bus = .free := by simpa [sclSeen_eq, FrontEnd.clocked] using hb
  show execRepeatedStart p sda s eighth = _
  unfold execRepeatedStart
  rw [upstream_open _ ho]
  simp only [startSeen, hbus, startCondition_setFe]

/-- A START on an ACTIVE bus is a repeated START, taken by context and management unit. -/
theorem exec_start_active {p : Port} (sda : Line) (eighth : Bool) {s : State} (ho : s.open p) (hb : (s.fe p).bus = .active) :
    exec (.repeatedStart p sda eighth) s = .next (repeated p sda ((cutOff p eighth s).setFe p (s.fe p).started)) := by
  have hbus : ((sclSeen p s).fe p).bus = .active := by simpa [sclSeen_eq, FrontEnd.clocked] using hb
  show execRepeatedStart p sda s eighth = _
  unfold execRepeatedStart
  rw [upstream_open _ ho]
  simp only [startSeen, hbus, cutOff_sclSeen, startCondition_setFe, cutOff_fe]

theorem exec_stop_free {p : Port} (sda : Line) (eighth : Bool) {s : State} (ho : s.open p) (hb : (s.fe p).bus = .free) :
    exec (.stop p sda eighth) s = .next (s.setFe p (s.fe p).clocked) := by
  have hbus : ((sclSeen p s).fe p).bus = .free := by simpa [sclSeen_eq, FrontEnd.clocked] using hb
  show execStop p sda s eighth = _
  unfold execStop
  rw [upstream_open _ ho]
  simp only [hbus]
  rw [sclSeen_eq]

/-- A STOP on an ACTIVE bus is taken by context and management unit. -/
theorem exec_stop_active {p : Port} (sda : Line) (eighth : Bool) {s : State} (ho : s.open p) (hb : (s.fe p).bus = .active) :
    exec (.stop p sda eighth) s = .next (stopped p sda ((cutOff p eighth s).setFe p (s.fe p).stoppedBy)) := by
  have hbus : ((sclSeen p s).fe p).bus = .active := by simpa [sclSeen_eq, FrontEnd.clocked] using hb
  show execStop p sda s eighth = _
  unfold execStop
  rw [upstream_open _ ho]
  simp only [hbus, cutOff_sclSeen, stopCondition_setFe, cutOff_fe]

/-- The port reset, where the clock is free and the timer not spent. -/
theorem exec_timeout {p : Port} (eighth : Bool) {s : State} (ho : s.clockFree p) (ht : (s.fe p).timer ≠ .spent) :
    exec (.upstreamBusTimeout p eighth) s =
      .next (lost p ((cutOff p eighth s).setFe p ⟨.free, .none, .address, false, .released, .spent⟩)) := by
  obtain ⟨hr, hh, hc⟩ := ho
  show execUpstreamBusTimeout p s eighth = _
  unfold execUpstreamBusTimeout
  rw [running_awake _ hr]
  simp [hh, hc, ht, resetFrontEnd_eq]

theorem exec_timeout_spent {p : Port} (eighth : Bool) {s : State} (ho : s.clockFree p) (ht : (s.fe p).timer = .spent) :
    exec (.upstreamBusTimeout p eighth) s = .next s := by
  obtain ⟨hr, hh, hc⟩ := ho
  show execUpstreamBusTimeout p s eighth = _
  unfold execUpstreamBusTimeout
  rw [running_awake _ hr]
  simp [hh, hc, ht]

/-! ## What a condition finds -/

/-- The states of an access that holds its segment while the controller has the clock. -/
abbrev CtxState.inAccess (st : CtxState) : Prop := st = .writeIndex ∨ st = .writeData ∨ st = .readData ∨ st = .readEnd

theorem CtxState.inAccess.ne_mgmtRead {st : CtxState} (h : st.inAccess) : st ≠ .mgmtRead := by
  rcases h with rfl | rfl | rfl | rfl <;> decide

theorem stopped_inAccess {p : Port} (sda : Line) {s : State} (h : (s.ctx p).state.inAccess) : stopped p sda s = endHeld p s := by
  unfold stopped
  rcases h with h | h | h | h <;> rw [h]

theorem repeated_inAccess {p : Port} (sda : Line) {s : State} (h : (s.ctx p).state.inAccess) :
    repeated p sda s = retainHeld p s := by
  unfold repeated
  rcases h with h | h | h | h <;> rw [h]

theorem lost_inAccess {p : Port} {s : State} (h : (s.ctx p).state.inAccess) : lost p s = loseAccess p s := by
  unfold lost
  rcases h with h | h | h | h <;> rw [h]

/-- The states of a context that a condition returns to IDLE with nothing to end. -/
abbrev CtxState.atLeisure (st : CtxState) : Prop := st = .idle ∨ st = .unaddressed ∨ st = .filler ∨ st = .refusing

theorem CtxState.atLeisure.ne_mgmtRead {st : CtxState} (h : st.atLeisure) : st ≠ .mgmtRead := by
  rcases h with rfl | rfl | rfl | rfl <;> decide

theorem stopped_atLeisure {p : Port} (sda : Line) {s : State} (h : (s.ctx p).state.atLeisure) :
    stopped p sda s = s.setCtx p .idle := by
  unfold stopped
  rcases h with h | h | h | h <;> rw [h] <;> rfl

theorem repeated_atLeisure {p : Port} (sda : Line) {s : State} (h : (s.ctx p).state.atLeisure) :
    repeated p sda s = s.setCtx p .idle := by
  unfold repeated
  rcases h with h | h | h | h <;> rw [h] <;> rfl

theorem lost_atLeisure {p : Port} {s : State} (h : (s.ctx p).state.atLeisure) : lost p s = s.setCtx p .idle := by
  unfold lost
  rcases h with h | h | h | h <;> rw [h] <;> rfl

theorem endRead_eq (p : Port) (s : State) :
    endRead p s = (s.setCtx p .idle).setMgmt p { s.mgmt p with reading := none } := rfl

theorem stopped_mgmtRead {p : Port} (sda : Line) {s : State} (h : (s.ctx p).state = .mgmtRead) :
    stopped p sda s = endRead p s := by
  simp only [stopped, h]

theorem repeated_mgmtRead {p : Port} (sda : Line) {s : State} (h : (s.ctx p).state = .mgmtRead) :
    repeated p sda s = endRead p s := by
  simp only [repeated, h]

theorem lost_mgmtRead {p : Port} {s : State} (h : (s.ctx p).state = .mgmtRead) : lost p s = endRead p s := by
  simp only [lost, h]

/-- The end of an access that holds its segment: hand-back, close, and IDLE. -/
theorem endHeld_accessing {p : Port} {s : State} {st : CtxState} {a : Access} {d : Seg} (h : s.accessing p st a d) :
    endHeld p s = ((s.setCursors (handed s a (endingCursor st a))).setCtx p .idle).setSeg d
      ((s.seg d).closed (endingTail st a)) := by
  obtain ⟨rfl, ha, hd⟩ := h
  simp only [endHeld, ha, letGo_eq ha hd, toIdle_eq]
  simp

/-- The end of an access by a repeated START: hand-back, the NAK that a byte still needs, and the segment retained. -/
theorem retainHeld_accessing {p : Port} {s : State} {st : CtxState} {a : Access} {d : Seg} (h : s.accessing p st a d) :
    retainHeld p s = ((s.setCursors (handed s a (endingCursor st a))).setCtx p
      ⟨if st = .readData then .readEnd else st, none, some d⟩).setSeg d
        { s.seg d with transfer := (s.seg d).transfer.or (endingTail st a) } := by
  obtain ⟨rfl, ha, hd⟩ := h
  simp only [retainHeld, ha, hd, retain, handBack_eq]
  simp

/-- The end of the retained interval: close, and IDLE. -/
theorem endHeld_retained {p : Port} {s : State} {d : Seg} (h : (s.ctx p).access = none) (hd : (s.ctx p).retained = some d) :
    endHeld p s = (s.setCtx p .idle).setSeg d ((s.seg d).closed none) := by
  simp only [endHeld, h, dropRetained, hd, toIdle_eq, closeRequest_eq]
  simp

/-! ## Accesses and the retained interval (O6, O7, O8) -/

/-- Settles O6: the STOP ends the access, whatever its state. -/
theorem stopEndsAHeldAccess : Obligations.StopEndsAHeldAccess := by
  intro p sda eighth s st a d ho hb hacc hin
  obtain ⟨rfl, ha, hd⟩ := hacc
  have hacc' : (s.setFe p (s.fe p).stoppedBy).accessing p (s.ctx p).state a d := ⟨rfl, ha, hd⟩
  rw [exec_stop_active sda eighth ho hb, cutOff_eq_self eighth (CtxState.inAccess.ne_mgmtRead hin),
    stopped_inAccess (s := s.setFe p _) sda hin, endHeld_accessing hacc']
  rfl

/-- Settles O7: the access ends with its segment retained. -/
theorem repeatedStartRetainsTheSegment : Obligations.RepeatedStartRetainsTheSegment := by
  intro p sda eighth s st a d ho hb hacc hin
  obtain ⟨rfl, ha, hd⟩ := hacc
  have hacc' : (s.setFe p (s.fe p).started).accessing p (s.ctx p).state a d := ⟨rfl, ha, hd⟩
  rw [exec_start_active sda eighth ho hb, cutOff_eq_self eighth (CtxState.inAccess.ne_mgmtRead hin),
    repeated_inAccess (s := s.setFe p _) sda hin, retainHeld_accessing hacc']
  rfl

/-- Settles O8: the retained interval has no access, so nothing is handed back or recorded. -/
theorem retainedIntervalEnds : Obligations.RetainedIntervalEnds := by
  intro p sda eighth s d ho hb ha hd hst
  have hin : (s.ctx p).state.inAccess := by
    rcases hst with h | h | h
    · exact .inl h
    · exact .inr (.inl h)
    · exact .inr (.inr (.inr h))
  have hcut : cutOff p eighth s = s := cutOff_eq_self eighth hin.ne_mgmtRead
  refine ⟨?_, ?_, fun ht => ?_⟩
  · have ha' : ((s.setFe p (s.fe p).started).ctx p).access = none := ha
    rw [exec_start_active sda eighth ho hb, hcut, repeated_inAccess (s := s.setFe p _) sda hin]
    simp only [retainHeld, ha']
  · rw [exec_stop_active sda eighth ho hb, hcut, stopped_inAccess (s := s.setFe p _) sda hin, endHeld_retained (s := s.setFe p _) (d := d) ha hd]
    rfl
  · have ha' : ((s.setFe p ⟨.free, .none, .address, false, .released, .spent⟩).ctx p).access = none := ha
    rw [exec_timeout eighth ho.1 ht, hcut, lost_inAccess (s := s.setFe p _) hin]
    simp only [loseAccess, ha']
    rw [endHeld_retained (s := s.setFe p _) (d := d) ha hd]
    rfl

end Sys2Proof.Machine
end

section
/-! PROOFS. Conditions and bytes on a port that holds nothing (R25, R62, R151), and the upstream port reset (R33 to R36). -/

namespace Sys2Proof.Machine

/-! ## A management read that a condition ends -/

/-- Of the management unit of port `p`, what a view byte in delivery changes where a condition or a port reset cuts it off (R151). -/
def cutUnit (s : State) (p : Port) (eighth : Bool) : MgmtUnit :=
  match (s.mgmt p).reading, (s.fe p).byte with
  | some r, .delivering _ => if eighth then (s.mgmt p).viewed r else s.mgmt p
  | _, _ => s.mgmt p

theorem cutOff_mgmtRead {p : Port} {s : State} (eighth : Bool) (h : (s.ctx p).state = .mgmtRead) :
    cutOff p eighth s = s.setMgmt p (cutUnit s p eighth) := by
  unfold cutOff cutUnit
  rw [h]
  cases (s.mgmt p).reading <;> cases (s.fe p).byte <;> cases eighth <;> simp [advanceView_eq]

theorem cutUnit_not_delivering {p : Port} {s : State} (eighth : Bool) (h : ∀ b, (s.fe p).byte ≠ .delivering b) :
    cutUnit s p eighth = s.mgmt p := by
  unfold cutUnit
  split
  · exact absurd (by assumption) (h _)
  · rfl

theorem cutUnit_delivering {p : Port} {s : State} {r : ReadPosition} {b : Byte} (eighth : Bool)
    (hb : (s.fe p).byte = .delivering b) (hr : (s.mgmt p).reading = some r) :
    cutUnit s p eighth = if eighth then (s.mgmt p).viewed r else s.mgmt p := by
  simp only [cutUnit, hb, hr]

/-- A START ends a management read, its last byte cut off. -/
theorem exec_start_mgmtRead {p : Port} (sda : Line) (eighth : Bool) {s : State} (ho : s.open p) (hb : (s.fe p).bus = .active)
    (hst : (s.ctx p).state = .mgmtRead) : exec (.repeatedStart p sda eighth) s =
      .next (((s.setFe p (s.fe p).started).setCtx p .idle).setMgmt p { cutUnit s p eighth with reading := none }) := by
  have hst' : (((s.setMgmt p (cutUnit s p eighth)).setFe p (s.fe p).started).ctx p).state = .mgmtRead := hst
  rw [exec_start_active sda eighth ho hb, cutOff_mgmtRead eighth hst, repeated_mgmtRead sda hst', endRead_eq]
  simp

/-- A STOP ends a management read, its last byte cut off. -/
theorem exec_stop_mgmtRead {p : Port} (sda : Line) (eighth : Bool) {s : State} (ho : s.open p) (hb : (s.fe p).bus = .active)
    (hst : (s.ctx p).state = .mgmtRead) : exec (.stop p sda eighth) s =
      .next (((s.setFe p (s.fe p).stoppedBy).setCtx p .idle).setMgmt p { cutUnit s p eighth with reading := none }) := by
  have hst' : (((s.setMgmt p (cutUnit s p eighth)).setFe p (s.fe p).stoppedBy).ctx p).state = .mgmtRead := hst
  rw [exec_stop_active sda eighth ho hb, cutOff_mgmtRead eighth hst, stopped_mgmtRead sda hst', endRead_eq]
  simp

/-! ## Bytes that pass by -/

/-- The bytes on port `p` pass by, in the words of the statements: there is no transaction, or nothing more is taken in this one. -/
abbrev State.passedBy (s : State) (p : Port) : Prop :=
  ((s.fe p).bus = .free ∧ (s.ctx p).state = .idle) ∨ ((s.fe p).role ≠ .address ∧
    ((s.ctx p).state = .unaddressed ∨ (s.ctx p).state = .refusing ∨ (s.ctx p).state = .readEnd ∨
      ((s.ctx p).state = .mgmtRead ∧ (s.fe p).byte = .none)))

theorem passesBy_of_passedBy {p : Port} {s : State} (h : s.passedBy p) : passesBy p s = true := by
  unfold passesBy
  rcases h with ⟨hbus, _⟩ | ⟨hrole, h | h | h | ⟨h, hbyte⟩⟩
  · simp [hbus]
  · simp [hrole, h]
  · simp [hrole, h]
  · simp [hrole, h]
  · simp [hrole, h, hbyte]

/-- A byte that passes by leaves nothing but its clocked bits. -/
theorem notTaken_passedBy {p : Port} {s : State} (h : s.passedBy p) : notTaken p (sclSeen p s) = .next (s.setFe p (s.fe p).clocked) := by
  have h' : (sclSeen p s).passedBy p := by simpa [State.passedBy, sclSeen_eq, FrontEnd.clocked] using h
  rw [notTaken, if_pos (passesBy_of_passedBy h'), sclSeen_eq]

/-- A port whose bytes pass by is in no state in which one is taken. -/
theorem State.passedBy.state_ne {p : Port} {s : State} (h : s.passedBy p) : (s.ctx p).state ≠ .mgmtWrite ∧
    (s.ctx p).state ≠ .writeIndex ∧ (s.ctx p).state ≠ .writeData ∧ (s.ctx p).state ≠ .readData ∧ (s.ctx p).state ≠ .filler := by
  rcases h with ⟨_, h⟩ | ⟨_, h | h | h | ⟨h, _⟩⟩ <;> rw [h] <;> decide

theorem heldIn_eq_none {p : Port} {st : CtxState} {s : State} (h : (s.ctx p).state ≠ st) : heldIn p st s = none := if_neg h

theorem exec_addressByte_passedBy {p : Port} (b : Byte) (sda : Line) {s : State} (ho : s.open p) (h : s.passedBy p) :
    exec (.addressByte p b sda) s = .next (s.setFe p (s.fe p).clocked) := by
  have hno : ¬ (((sclSeen p s).fe p).bus = .active ∧ ((sclSeen p s).fe p).role = .address) := by
    simp only [sclSeen_eq, State.setFe_fe, FrontEnd.clocked]
    rintro ⟨hbus, hrole⟩
    rcases h with ⟨hfree, _⟩ | ⟨hne, _⟩
    · rw [hfree] at hbus; exact nomatch hbus
    · exact hne hrole
  show execAddressByte p b sda s = _
  rw [execAddressByte, upstream_open _ ho, if_neg hno, notTaken_passedBy h]

theorem exec_frameByte_passedBy {p : Port} (b : Byte) {s : State} (ho : s.open p) (h : s.passedBy p) :
    exec (.frameByte p b) s = .next (s.setFe p (s.fe p).clocked) := by
  obtain ⟨hne, _⟩ := h.state_ne
  rw [exec_frameByte, execFrameByte, upstream_open _ ho, ← notTaken_passedBy h]
  split
  · exact absurd (by assumption) hne
  · rfl

theorem exec_viewByteAnswer_passedBy {p : Port} (x : Ack) {s : State} (ho : s.open p) (h : s.passedBy p) :
    exec (.viewByteAnswer p x) s = .next (s.setFe p (s.fe p).clocked) := by
  show execViewByteAnswer p x s = _
  rw [execViewByteAnswer, upstream_open _ ho, ← notTaken_passedBy h]
  split
  case h_1 r hst _ =>
    have hst : (s.ctx p).state = .mgmtRead := hst
    have hdel : delivering p (sclSeen p s) = false := by
      rcases h with ⟨_, h⟩ | ⟨_, h | h | h | ⟨_, hbyte⟩⟩
      · rw [h] at hst; exact nomatch hst
      · rw [h] at hst; exact nomatch hst
      · rw [h] at hst; exact nomatch hst
      · rw [h] at hst; exact nomatch hst
      · simp [delivering, sclSeen_eq, FrontEnd.clocked, hbyte]
    rw [hdel]
    rfl
  case h_2 => rfl

/-- A row that needs an access in one state takes nothing on a port whose bytes pass by. -/
theorem exec_accessByte_passedBy {p : Port} {s : State} (ho : s.open p) (h : s.passedBy p) (b : Byte) (x : Ack) :
    ∀ c ∈ [Instr.writeIndexByte p b, .writeDataByte p b, .readByteAck p, .readByteNak p, .fillerByteAnswer p x],
      exec c s = .next (s.setFe p (s.fe p).clocked) := by
  obtain ⟨_, hindex, hdata, hread, hfill⟩ := h.state_ne
  have hnone : ∀ st, (s.ctx p).state ≠ st → heldIn p st (sclSeen p s) = none := fun _ hne => heldIn_eq_none hne
  have hfill' : ((sclSeen p s).ctx p).state ≠ .filler := hfill
  rw [← notTaken_passedBy h]
  simp only [List.forall_mem_cons, List.not_mem_nil, false_implies, implies_true, and_true]
  refine ⟨?_, ?_, ?_, ?_, ?_⟩
  · show execWriteIndexByte p b s = _
    simp only [execWriteIndexByte, upstream_open _ ho, hnone _ hindex]
  · show execWriteDataByte p b s = _
    simp only [execWriteDataByte, upstream_open _ ho, hnone _ hdata]
  · show execReadByteAck p s = _
    simp only [execReadByteAck, upstream_open _ ho, hnone _ hread]
  · show execReadByteNak p s = _
    simp only [execReadByteNak, upstream_open _ ho, hnone _ hread]
  · show execFillerByteAnswer p x s = _
    simp only [execFillerByteAnswer, upstream_open _ ho, if_neg hfill']

/-- Settles O5: by the bus state, by what the context does, and by the row of the byte. -/
theorem conditionsWithNothingHeld : Obligations.ConditionsWithNothingHeld := by
  refine ⟨exec_upstreamStart_eq, fun p sda eighth s ho => ⟨fun hb => ?_, fun hb hst => ?_, fun hb hst => ⟨fun hno => ?_, fun b r hdel hr => ?_⟩,
    fun h b x => ?_⟩⟩
  · rw [exec_upstreamStart_eq, exec_start_free sda eighth ho hb, exec_stop_free sda eighth ho hb]
    exact ⟨rfl, rfl, rfl⟩
  · have hst : (s.ctx p).state.atLeisure := hst
    have hcut := cutOff_eq_self eighth hst.ne_mgmtRead
    rw [exec_upstreamStart_eq, exec_start_active sda eighth ho hb, exec_stop_active sda eighth ho hb, hcut,
      repeated_atLeisure (s := s.setFe p _) sda hst, stopped_atLeisure (s := s.setFe p _) sda hst]
    exact ⟨rfl, rfl, rfl⟩
  · rw [exec_upstreamStart_eq, exec_start_mgmtRead sda eighth ho hb hst, exec_stop_mgmtRead sda eighth ho hb hst,
      cutUnit_not_delivering eighth hno]
    exact ⟨rfl, rfl, rfl⟩
  · rw [exec_upstreamStart_eq, exec_start_mgmtRead sda eighth ho hb hst, exec_stop_mgmtRead sda eighth ho hb hst,
      cutUnit_delivering eighth hdel hr]
    exact ⟨rfl, rfl, rfl⟩
  · have hother := exec_accessByte_passedBy ho h b x
    simp only [List.forall_mem_cons, List.not_mem_nil, false_implies, implies_true, and_true] at hother ⊢
    obtain ⟨hindex, hdata, hack, hnak, hfill⟩ := hother
    exact ⟨exec_addressByte_passedBy b sda ho h, exec_frameByte_passedBy b ho h, hindex, hdata, hack, hnak, hfill,
      exec_viewByteAnswer_passedBy x ho h⟩

/-! ## The upstream port reset (O25) -/

/-- The access that a port reset takes: the record with the cursor as handed back, and then the end as at a STOP (R34). -/
theorem loseAccess_accessing {p : Port} {s : State} {st : CtxState} {a : Access} {d : Seg} (h : s.accessing p st a d) :
    loseAccess p s = (((s.setCtx p .idle).setCursors (handed s a (endingCursor st a))).setLog (logged s p a .upstreamLost
      (if a.copy.width = .zero then none else endingCursor st a) a.count)).setSeg d ((s.seg d).closed (endingTail st a)) := by
  obtain ⟨rfl, ha, hd⟩ := h
  have hacc : ∀ l, (s.setLog l).accessing p (s.ctx p).state a d := fun _ => ⟨rfl, ha, hd⟩
  simp only [loseAccess, ha, record_eq ha, recordIndex_eq, endHeld_accessing (hacc _)]
  simp

/-- A frame in assembly at a port reset ends LENGTH (R35). -/
theorem discardFrame_eq {p : Port} {s : State} {f : Frame} (h : (s.mgmt p).frame = some f) :
    discardFrame p s = s.setMgmt p { s.mgmt p with
      frame := none, result := ⟨f.command.getD 0x00#8, .length, (s.mgmt p).result.serial + 1⟩ } := by
  simp only [discardFrame, h, writeResult, setFrame]
  simp

/-- Settles O25: the front end is reset in every case, and the rest is by what the context does. -/
theorem upstreamPortReset : Obligations.UpstreamPortReset := by
  intro p eighth s ho
  refine ⟨fun ht => exec_timeout_spent eighth ho ht, fun ht => ?_⟩
  rw [exec_timeout eighth ho ht]
  refine ⟨fun hst => ?_, fun st a d hacc hin => ?_, fun f hst hf => ?_, fun hst => ?_⟩
  · have hst : (s.ctx p).state.atLeisure := hst
    rw [cutOff_eq_self eighth hst.ne_mgmtRead, lost_atLeisure (s := s.setFe p _) hst]
  · obtain ⟨rfl, ha, hd⟩ := hacc
    have hin : (s.ctx p).state.inAccess := hin
    rw [cutOff_eq_self eighth hin.ne_mgmtRead, lost_inAccess (s := s.setFe p _) hin,
      loseAccess_accessing (s := s.setFe p _) ⟨rfl, ha, hd⟩]
    rfl
  · have hne : (s.ctx p).state ≠ .mgmtRead := by rw [hst]; decide
    have hst' : ((s.setFe p ⟨.free, .none, .address, false, .released, .spent⟩).ctx p).state = .mgmtWrite := hst
    rw [cutOff_eq_self eighth hne]
    simp only [lost, hst', toIdle_eq]
    rw [discardFrame_eq (s := (s.setFe p _).setCtx p _) (f := f) hf]
    rfl
  · have hst' : (((s.setMgmt p (cutUnit s p eighth)).setFe p ⟨.free, .none, .address, false, .released, .spent⟩).ctx p).state =
      .mgmtRead := hst
    rw [cutOff_mgmtRead eighth hst, lost_mgmtRead hst', endRead_eq]
    refine ⟨fun hno => ?_, fun b r hdel hr => ?_⟩
    · rw [cutUnit_not_delivering eighth hno]; simp
    · rw [cutUnit_delivering eighth hdel hr]; simp

end Sys2Proof.Machine
end

section
/-! PROOFS. The address byte (R13, R14, R28, R30, R43 to R48, R64): its resolution once, then each of its outcomes. -/

namespace Sys2Proof.Machine

/-! ## The resolution of an address byte -/

/-- An answer ends a clock hold, whatever it was. -/
@[simp] theorem FrontEnd.holding_answering (f : FrontEnd) (a : Ack) : f.holding.answering a = f.answering a := rfl

@[simp] theorem FrontEnd.holding_sending (f : FrontEnd) (b : Byte) : f.holding.sending b = f.sending b := rfl

/-- The state in which port `p`'s address byte of direction `dir` is resolved: in MATCH with the clock held, with the access `a` where it matched an
entry (R28). -/
def State.atMatch (s : State) (p : Port) (dir : Dir) (a : Option Access) : State :=
  (s.setFe p ((s.fe p).addressed dir).holding).setCtx p ⟨.matching, a, (s.ctx p).retained⟩

@[simp] theorem State.atMatch_ctx (s : State) (p : Port) (dir : Dir) (a : Option Access) :
    (s.atMatch p dir a).ctx p = ⟨.matching, a, (s.ctx p).retained⟩ := by simp [State.atMatch]

@[simp] theorem State.atMatch_seg (s : State) (p : Port) (dir : Dir) (a : Option Access) (d : Seg) :
    (s.atMatch p dir a).seg d = s.seg d := rfl

@[simp] theorem State.atMatch_cursors (s : State) (p : Port) (dir : Dir) (a : Option Access) :
    (s.atMatch p dir a).cursors = s.cursors := rfl

@[simp] theorem State.atMatch_holdLimit (s : State) (p q : Port) (dir : Dir) (a : Option Access) :
    (s.atMatch p dir a).holdLimit q = s.holdLimit q := rfl

theorem exec_addressByte {p : Port} {b : Byte} {sda : Line} {s : State} (h : s.awaitsAddress p) :
    exec (.addressByte p b sda) s =
      .next (resolve p (addressOf b) (dirOf b) sda (s.setFe p ((s.fe p).addressed (dirOf b)))) := by
  obtain ⟨ho, hbus, hrole⟩ := h
  have hseen : ((sclSeen p s).fe p).bus = .active ∧ ((sclSeen p s).fe p).role = .address := by
    simp [sclSeen_eq, FrontEnd.clocked, hbus, hrole]
  show execAddressByte p b sda s = _
  rw [execAddressByte, upstream_open _ ho, if_pos hseen, setRole_sclSeen]

theorem holdClock_matching (s : State) (p : Port) (dir : Dir) :
    (holdClock p (s.setFe p ((s.fe p).addressed dir))).setCtx p
        ⟨.matching, none, ((s.setFe p ((s.fe p).addressed dir)).ctx p).retained⟩ = s.atMatch p dir none := by
  simp [holdClock_eq, State.atMatch]

/-- An address byte that keeps no segment comes to its outcome at once where its port retains none, and else awaits the release (R64). -/
theorem settle_none {p : Port} {s : State} (dir : Dir) (a : Option Access) (o : AddressOutcome) (h : (s.ctx p).retained = none) :
    settle p o (s.atMatch p dir a) = addressOutcome p o (s.atMatch p dir a) := by
  simp only [settle, State.atMatch_ctx, h]

theorem settle_some {p : Port} {s : State} {d : Seg} (dir : Dir) (a : Option Access) (o : AddressOutcome)
    (h : (s.ctx p).retained = some d) : settle p o (s.atMatch p dir a) = s.awaiting p d dir a o := by
  simp only [settle, State.atMatch_ctx, h, awaitRelease_spec]
  simp [State.atMatch, State.awaiting]

theorem resolve_mgmt_write {p : Port} {s : State} {x : Addr7} (sda : Line) (h : x = s.mgmtAddr) :
    resolve p x .write sda (s.setFe p ((s.fe p).addressed .write)) = settle p .frame (s.atMatch p .write none) := by
  simp only [resolve, holdClock_matching, State.setFe_mgmtAddr, if_pos h]

theorem resolve_mgmt_read {p : Port} {s : State} {x : Addr7} (sda : Line) (h : x = s.mgmtAddr) :
    resolve p x .read sda (s.setFe p ((s.fe p).addressed .read)) = settle p .snapshot (s.atMatch p .read none) := by
  simp only [resolve, holdClock_matching, State.setFe_mgmtAddr, if_pos h]

theorem resolve_unserved {p : Port} {s : State} {x : Addr7} (dir : Dir) (sda : Line) (h : x ≠ s.mgmtAddr)
    (hno : reserved x = true ∨ matchEntry s.active p x = none) :
    resolve p x dir sda (s.setFe p ((s.fe p).addressed dir)) = settle p .unanswered (s.atMatch p dir none) := by
  simp only [resolve, holdClock_matching, State.setFe_mgmtAddr, if_neg h]
  rcases hno with hr | hm
  · rw [if_pos hr]
  · simp [hm]

theorem resolve_matched {p : Port} {s : State} {x : Addr7} {n : Fin 32} (dir : Dir) (sda : Line) (h : x ≠ s.mgmtAddr)
    (hr : reserved x = false) (hm : matchEntry s.active p x = some n) :
    resolve p x dir sda (s.setFe p ((s.fe p).addressed dir)) = matched p n dir sda (s.atMatch p dir none) := by
  simp only [resolve, holdClock_matching, State.setFe_mgmtAddr, if_neg h, hr, State.setFe_active, hm, Bool.false_eq_true, if_false]

/-- The access record that the address byte takes at its match (R14). -/
theorem atMatch_setCtx (s : State) (p : Port) (dir : Dir) (a : Access) :
    (s.atMatch p dir none).setCtx p ⟨.matching, some a, (s.ctx p).retained⟩ = s.atMatch p dir (some a) := by
  simp [State.atMatch]

/-- Refused at the first two steps (R43). -/
theorem matched_refused {p : Port} {s : State} {n : Fin 32} {dir : Dir} {k : Kind} (sda : Line)
    (h : firstSteps (Access.new n s.active[n] dir) = some k) : matched p n dir sda (s.atMatch p dir none) =
      settle p (.refused k none) (s.atMatch p dir (some (Access.new n s.active[n] dir))) := by
  have h' : firstSteps (Access.new n (s.atMatch p dir none).active[n] dir) = some k := h
  rw [← atMatch_setCtx]
  simp only [matched, h', State.atMatch_ctx]
  rfl

/-- The retained segment is the one that the entry names (R64). -/
theorem matched_kept {p : Port} {s : State} {n : Fin 32} {dir : Dir} (sda : Line)
    (h : firstSteps (Access.new n s.active[n] dir) = none) (hret : (s.ctx p).retained = some s.active[n].segment) :
    matched p n dir sda (s.atMatch p dir none) =
      keepSegment p s.active[n].segment sda (s.atMatch p dir (some (Access.new n s.active[n] dir))) := by
  have h' : firstSteps (Access.new n (s.atMatch p dir none).active[n] dir) = none := h
  rw [← atMatch_setCtx]
  simp only [matched, h', State.atMatch_ctx]
  exact if_pos hret

/-- No segment is kept, and the one that the entry names is requested (R45). -/
theorem matched_request {p : Port} {s : State} {n : Fin 32} {dir : Dir} (sda : Line)
    (h : firstSteps (Access.new n s.active[n] dir) = none) (hret : (s.ctx p).retained ≠ some s.active[n].segment) :
    matched p n dir sda (s.atMatch p dir none) =
      settle p (.request sda) (s.atMatch p dir (some (Access.new n s.active[n] dir))) := by
  have h' : firstSteps (Access.new n (s.atMatch p dir none).active[n] dir) = none := h
  rw [← atMatch_setCtx]
  simp only [matched, h', State.atMatch_ctx]
  exact if_neg hret

/-! ## Addresses outside the policy (O9) -/

theorem addressOutcome_unanswered (s : State) (p : Port) (dir : Dir) (a : Option Access) :
    addressOutcome p .unanswered (s.atMatch p dir a) = (s.setFe p ((s.fe p).addressed dir)).ignored p := by
  rw [(addressOutcome_resolves p .unanswered _).1 rfl]
  simp [State.ignored, State.atMatch]

theorem addressOutcome_frame_eq (s : State) (p : Port) (dir : Dir) (a : Option Access) :
    addressOutcome p .frame (s.atMatch p dir a) = (s.setFe p ((s.fe p).addressed dir)).framing p := by
  rw [(addressOutcome_resolves p .frame _).2.1 rfl]
  simp [State.framing, State.atMatch]

theorem matchEntry_eq_none_iff {t : Table} {p : Port} {x : Addr7} :
    matchEntry t p x = none ↔ ∀ n : Fin 32, ¬ (t[n].enabled = true ∧ t[n].includes p ∧ t[n].upAddr = x) := by
  simp only [matchEntry, List.find?_eq_none, List.mem_finRange, true_implies, Entry.serves_iff]

theorem serves_of_matchEntry {t : Table} {p : Port} {x : Addr7} {n : Fin 32} (h : matchEntry t p x = some n) :
    t[n].enabled = true ∧ t[n].includes p ∧ t[n].upAddr = x :=
  (Entry.serves_iff ..).mp (List.find?_some (p := fun n : Fin 32 => t[n].serves p x) h)

/-- In a valid table the entry that matches is the one that serves (R13, R15). -/
theorem matchEntry_eq_some_iff {mgmt : Addr7} {t : Table} {p : Port} {x : Addr7} {n : Fin 32} (hv : validate mgmt t = none) :
    matchEntry t p x = some n ↔ t[n].enabled = true ∧ t[n].includes p ∧ t[n].upAddr = x := by
  refine ⟨serves_of_matchEntry, fun hn => ?_⟩
  obtain ⟨hen, hin, hup⟩ := hn
  cases hm : matchEntry t p x with
  | none => exact absurd ⟨hen, hin, hup⟩ (matchEntry_eq_none_iff.mp hm n)
  | some k =>
    obtain ⟨hen', hin', hup'⟩ := serves_of_matchEntry hm
    rw [valid_serves_unique hv hen' hen hin' hin (hup'.trans hup.symm)]

theorem addressOf_toNat (b : Byte) : (addressOf b).toNat = b.toNat / 2 := by
  have := b.isLt
  simp only [addressOf, BitVec.toNat_setWidth, BitVec.toNat_ushiftRight, Nat.shiftRight_eq_div_pow]
  omega

theorem dirOf_eq_read_iff (b : Byte) : dirOf b = .read ↔ b.toNat % 2 = 1 := by
  have hbit : b.getLsbD 0 = decide (b.toNat % 2 = 1) := by
    simp [BitVec.getLsbD, Nat.testBit_zero]
  rw [dirOf, hbit]
  by_cases h : b.toNat % 2 = 1 <;> simp [h]

/-- Settles O9: the two outcomes at once and at the release, and what matching finds. -/
theorem addressesOutsideThePolicy : Obligations.AddressesOutsideThePolicy := by
  refine ⟨fun p b sda s h => ⟨fun hne hno => ?_, fun heq hw => ?_⟩,
    fun p x s => ⟨matchEntry_eq_none_iff, fun hv n => matchEntry_eq_some_iff hv⟩, fun b => ⟨addressOf_toNat b, dirOf_eq_read_iff b⟩⟩
  · have hno' : reserved (addressOf b) = true ∨ matchEntry s.active p (addressOf b) = none := by
      rw [reserved_iff]
      exact or_assoc.mpr hno
    rw [exec_addressByte h, resolve_unserved (dirOf b) sda hne hno']
    exact ⟨fun hr => by rw [settle_none _ _ _ hr, addressOutcome_unanswered], fun d hr => by rw [settle_some _ _ _ hr]⟩
  · rw [exec_addressByte h, hw, resolve_mgmt_write sda heq]
    exact ⟨fun hr => by rw [settle_none _ _ _ hr, addressOutcome_frame_eq], fun d hr => by rw [settle_some _ _ _ hr]⟩

/-! ## Steps 1 and 2 (O11) -/

theorem firstSteps_noReadWindow (n : Fin 32) {e : Entry} (h : e.readWin.present = false) :
    firstSteps (Access.new n e .read) = some .readWindow := by
  simp [firstSteps, Access.new, h]

theorem firstSteps_noWriteWindow (n : Fin 32) {e : Entry} (hw : e.width = .zero) (h : e.writeWin.present = false) :
    firstSteps (Access.new n e .write) = some .writeWindow := by
  simp [firstSteps, Access.new, hw, h]

/-- A refusal in MATCH: the record, the denied claim and the NAK, and the access stays as it was taken (R43). -/
theorem refusedFor_atMatch {s : State} {p : Port} {a : Access} (dir : Dir) (k : Kind) (h : (s.ctx p).retained = none) :
    (s.atMatch p dir (some a)).refusedFor p a k none =
      (((s.setLog (logged s p a k none 0)).setCounters (denied s a)).setFe p (((s.fe p).addressed dir).answering .nak)).setCtx p
        ⟨.refusing, some a, none⟩ := by
  simp [State.refusedFor, State.atMatch, h]

theorem addressOutcome_refused {s : State} {p : Port} {a : Access} (dir : Dir) (k : Kind) (i : Option Word16) :
    addressOutcome p (.refused k i) (s.atMatch p dir (some a)) = (s.atMatch p dir (some a)).refusedFor p a k i := by
  obtain ⟨_, _, _, hrefused, _⟩ := addressOutcome_resolves p (.refused k i) (s.atMatch p dir (some a))
  exact hrefused k i a rfl (by simp)

/-- Settles O11: the first two steps name the kind, and the refusal follows at once or at the release. -/
theorem refusalAtStepsOneAndTwo : Obligations.RefusalAtStepsOneAndTwo := by
  intro p b sda s n k h hne hr hm hwhy
  have hsteps : firstSteps (Access.new n s.active[n] (dirOf b)) = some k := by
    rcases hwhy with ⟨hdir, hwin, rfl⟩ | ⟨hdir, hw, hwin, rfl⟩
    · rw [hdir, firstSteps_noReadWindow n hwin]
    · rw [hdir, firstSteps_noWriteWindow n hw hwin]
  rw [exec_addressByte h, resolve_matched (dirOf b) sda hne hr hm, matched_refused sda hsteps]
  exact ⟨fun hret => by rw [settle_none _ _ _ hret, addressOutcome_refused, refusedFor_atMatch _ _ hret]; rfl,
    fun d hret => by rw [settle_some _ _ _ hret]; rfl⟩

/-! ## Step 3 and step 4 (O12, O13, O14, O15) -/

/-- An address that passes the first two steps, on a port that retains nothing, requests its segment (R45). -/
theorem exec_addressByte_request {p : Port} {b : Byte} {sda : Line} {s : State} {n : Fin 32} (h : s.awaitsAddress p)
    (hne : addressOf b ≠ s.mgmtAddr) (hr : reserved (addressOf b) = false) (hm : matchEntry s.active p (addressOf b) = some n)
    (hsteps : passesStepsOneTwo s.active[n] (dirOf b)) (hret : (s.ctx p).retained = none) :
    exec (.addressByte p b sda) s = .next (request p s.active[n].segment sda
      (s.atMatch p (dirOf b) (some (Access.new n s.active[n] (dirOf b))))) := by
  have hfirst : firstSteps (Access.new n s.active[n] (dirOf b)) = none := (firstSteps_none_iff _).mpr hsteps
  rw [exec_addressByte h, resolve_matched (dirOf b) sda hne hr hm, matched_request sda hfirst (by rw [hret]; exact nofun),
    settle_none _ _ _ hret]
  simp only [addressOutcome, State.atMatch_ctx]
  rfl

/-- Settles O12: the grant of the segment, and the wait for the release of another one. -/
theorem grantOpensTheTarget : Obligations.GrantOpensTheTarget := by
  intro p b sda s n d h hne hr hm hsteps hd
  subst hd
  refine ⟨fun hret hidle hlease hfour => ?_, fun e hret hed => ?_⟩
  · rw [exec_addressByte_request h hne hr hm hsteps hret]
    obtain ⟨_, hgrant, _, _⟩ := request_answers (s := s.atMatch p (dirOf b) (some (Access.new n s.active[n] (dirOf b)))) sda
      (a := Access.new n s.active[n] (dirOf b)) (d := s.active[n].segment) (p := p) (by simp)
    rw [(hgrant hidle hlease).1 hfour]
    simp [State.grantedTo, State.atMatch, Access.new]
  · have hfirst : firstSteps (Access.new n s.active[n] (dirOf b)) = none := (firstSteps_none_iff _).mpr hsteps
    rw [exec_addressByte h, resolve_matched (dirOf b) sda hne hr hm, matched_request sda hfirst (by rw [hret]; simpa using hed),
      settle_some _ _ _ hret]
    rfl

/-- Handing back a cursor as it was loaded leaves a canonical map as it is (R61, R73). -/
theorem storeCursor_loadCursor {m : List CursorRec} (e : Entry) (h : cursorsSorted m) (hw : e.width ≠ .zero) :
    storeCursor e.target e.width (loadCursor m e) m = m := by
  have hfix : ∀ r ∈ m, (if r.target = e.target ∧ r.width = e.width then { r with cursor := loadCursor m e } else r) = r := by
    intro r hr
    split
    case isTrue hkey =>
      have hfound : findCursor m e.target = some r := hkey.1 ▸ findCursor_of_mem h hr
      have hload : loadCursor m e = r.cursor := by
        unfold loadCursor
        split
        · exact absurd (by assumption) hw
        · rw [hfound]; exact if_pos hkey.2
      rw [hload]
    case isFalse => rfl
  exact (List.map_congr_left hfix).trans (List.map_id _)

/-- Settles O13: step 4 refuses the granted segment, which leaves segment and cursor map as they were. -/
theorem refusalAtStepFour : Obligations.RefusalAtStepFour := by
  intro p b sda s n d k h hne hr hm hdir hwin hw hd hret hidle hlease hsorted v hwhy a
  subst hd
  have hfour : ¬ passesStepFour s.active[n] .read v := by
    rintro (hf | hf | ⟨hv, hblind⟩ | ⟨i, hi, hlow, hhigh⟩)
    · exact nomatch hf
    · exact hw hf
    · rcases hwhy with ⟨_, hb, _⟩ | ⟨_, i, hi, _⟩
      · rw [hb] at hblind; exact nomatch hblind
      · rw [hv] at hi; exact nomatch hi
    · rcases hwhy with ⟨hv, _⟩ | ⟨_, j, hj, hout⟩
      · rw [hv] at hi; exact nomatch hi
      · obtain rfl : i = j := Option.some.inj (hi.symm.trans hj)
        omega
  have hk : k = if v = none then .blindRead else .readWindow := by
    rcases hwhy with ⟨hv, _, rfl⟩ | ⟨rfl, i, hi, _⟩
    · rw [if_pos hv]
    · rw [if_neg (by rw [hi]; exact nofun)]
  have hsteps : passesStepsOneTwo s.active[n] (dirOf b) := by rw [hdir]; exact ⟨fun _ => hwin, nofun⟩
  rw [exec_addressByte_request h hne hr hm hsteps hret, hdir]
  obtain ⟨_, hgrant, _, _⟩ := request_answers (s := s.atMatch p .read (some (Access.new n s.active[n] .read))) sda
    (a := Access.new n s.active[n] .read) (d := s.active[n].segment) (p := p) (by simp)
  rw [(hgrant hidle hlease).2 hfour]
  have hback : handed s (Access.new n s.active[n] .read) v = s.cursors := by
    have hmoves : ¬ ((Access.new n s.active[n] .read).detached || decide ((Access.new n s.active[n] .read).copy.width = .zero)) = true := by
      rw [Bool.or_eq_true, decide_eq_true_eq]
      exact fun h => h.elim nofun hw
    rw [handed, if_neg hmoves]
    exact storeCursor_loadCursor _ hsorted hw
  refine congrArg _ ?_
  calc (s.atMatch p .read (some (Access.new n s.active[n] .read))).refusedAtFour p (Access.new n s.active[n] .read)
      = (((((s.atMatch p .read (some (Access.new n s.active[n] .read))).setCursors (handed s (Access.new n s.active[n] .read) v)).setLog
          (logged s p a k v 0)).setCounters (denied s a)).setFe p
            (((s.fe p).addressed .read).holding.answering .nak)).setCtx p ⟨.refusing, some a, none⟩ := by
        rw [hk]
        simp [State.refusedAtFour, State.atMatch]
        rfl
    _ = _ := by
        rw [hback]
        simp [State.atMatch]

/-- Settles O14: the answer of the segment's state to the request. -/
theorem requestAnswers : Obligations.RequestAnswers := by
  intro p b sda s n d h hne hr hm hsteps hd hret a refusedAs holding
  subst hd
  have ha : ((s.atMatch p (dirOf b) (some a)).ctx p).access = some a := by simp
  obtain ⟨hdown, _, hbusy, hkept⟩ := request_answers sda (d := s.active[n].segment) ha
  rw [exec_addressByte_request h hne hr hm hsteps hret]
  refine ⟨fun hst => ?_, fun hst => ⟨fun hl => ?_, fun hl => ?_⟩, fun hst hh => ?_⟩
  · exact congrArg _ ((hdown hst).trans (refusedFor_atMatch _ _ hret))
  · exact congrArg _ (((hbusy hst).1 hl).trans (refusedFor_atMatch _ _ hret))
  · refine congrArg _ (((hbusy hst).2 hl).trans ?_)
    simp [State.waitsFor, State.atMatch, hret, holding]
  · refine congrArg _ ((hkept hst hh).trans ?_)
    simp [State.atMatch, hret, holding]

/-- The holder keeps its segment and step 4 passes: OPENING begins (R47, R48, R64). -/
theorem keepSegment_passes {p : Port} {d : Seg} {s : State} {a : Access} (sda : Line) (h : (s.ctx p).access = some a)
    (h4 : passesStepFour a.copy a.dir (loadCursor s.cursors a.copy)) : keepSegment p d sda s =
      beginOpening d sda a (s.setCtx p ⟨.opening, some { a with held := some d, cursor := loadCursor s.cursors a.copy }, none⟩) := by
  simp only [keepSegment, h, (stepFour_none_iff a _).mpr h4, beginHold, setState_eq]
  simp

/-- The holder keeps its segment and step 4 refuses: the loaded cursor is handed back and the release awaited (R47, R64). -/
theorem keepSegment_refuses {p : Port} {d : Seg} {s : State} {a : Access} (sda : Line) (h : (s.ctx p).access = some a)
    (h4 : ¬ passesStepFour a.copy a.dir (loadCursor s.cursors a.copy)) : keepSegment p d sda s =
      awaitRelease p d (.refused (if loadCursor s.cursors a.copy = none then .blindRead else .readWindow) (loadCursor s.cursors a.copy))
        ((s.setCursors (handed s { a with held := some d, cursor := loadCursor s.cursors a.copy } (loadCursor s.cursors a.copy))).setCtx p
          ⟨(s.ctx p).state, some (a.ended (loadCursor s.cursors a.copy)), none⟩) := by
  have hheld : ((beginHold p d (loadCursor s.cursors a.copy) a s).ctx p).access =
    some { a with held := some d, cursor := loadCursor s.cursors a.copy } := by simp [beginHold]
  simp only [keepSegment, h, stepFour_some h4, giveUp_eq hheld]
  simp [beginHold, Access.ended]

/-- OPENING on a segment, in the words of the statements (R48, R90, R101). -/
theorem beginOpening_eq (d : Seg) (sda : Line) (a : Access) (s : State) : beginOpening d sda a s = s.setSeg d
    (if (s.seg d).transfer = some .nak then { s.seg d with openAfter := true }
     else if sda = .high then { s.seg d with
       transfer := some (.start (decide ((s.seg d).bus = .opened)) a.copy.downAddr a.dir), bus := .opened, openAfter := false }
     else { s.seg d with transfer := some .busClear, openAfter := false }) := by
  cases sda <;> rfl

/-- Settles O15: the kept segment is opened, or given up at step 4. -/
theorem retainedSegmentIsKept : Obligations.RetainedSegmentIsKept := by
  intro p b sda s n d h hne hr hm hsteps hd hret v a k
  subst hd
  have hfirst : firstSteps (Access.new n s.active[n] (dirOf b)) = none := (firstSteps_none_iff _).mpr hsteps
  have ha : ((s.atMatch p (dirOf b) (some (Access.new n s.active[n] (dirOf b)))).ctx p).access =
    some (Access.new n s.active[n] (dirOf b)) := by simp
  rw [exec_addressByte h, resolve_matched (dirOf b) sda hne hr hm, matched_kept sda hfirst hret]
  refine ⟨fun h4 => congrArg _ ?_, fun h4 => congrArg _ ?_⟩
  · rw [keepSegment_passes sda ha h4, beginOpening_eq]
    simp [State.atMatch, Access.new, v, a]
  · rw [keepSegment_refuses sda ha h4, awaitRelease_spec]
    simp [State.atMatch, State.awaiting, Access.new, Access.ended, v, a, k]
    rfl

end Sys2Proof.Machine
end

section
/-! PROOFS. Management frames (R137 to R144, R148): the bytes of a frame, its end, and the frame that carries each command. -/

namespace Sys2Proof.Machine

/-! ## The byte at each position of a frame (R138, R140) -/

theorem takeFrameByte_command {f : Frame} (p : Port) {b : Byte} {n : Nat} (s : State) (hfault : f.fault = none)
    (hc : f.command = none) (hb : payloadLength b = some n) : takeFrameByte p f b s =
      answer p .ack (setFrame p (some { f with command := some b, crc := crcFold f.crc b }) s) := by
  simp only [takeFrameByte, hfault, hc, takeCommandByte, hb]

theorem takeFrameByte_unknown {f : Frame} (p : Port) {b : Byte} (s : State) (hfault : f.fault = none)
    (hc : f.command = none) (hb : payloadLength b = none) : takeFrameByte p f b s =
      answer p .nak (setFrame p (some { f with command := some b, fault := some .unknown }) s) := by
  simp only [takeFrameByte, hfault, hc, takeCommandByte, hb]

theorem takeFrameByte_payload {f : Frame} (p : Port) (b : Byte) {code : Byte} {n : Nat} (s : State) (hfault : f.fault = none)
    (hm : f.matched = false) (hc : f.command = some code) (hn : payloadLength code = some n) (hlt : f.payload.length < n) :
    takeFrameByte p f b s =
      answer p .ack (setFrame p (some { f with payload := f.payload ++ [b], crc := crcFold f.crc b }) s) := by
  have hwants : f.wantsPayload code = true := by simpa [Frame.wantsPayload, hn] using hlt
  simp only [takeFrameByte, hfault, hc, hm, hwants, if_true, Bool.false_eq_true, if_false]

theorem takeFrameByte_check {f : Frame} (p : Port) (b : Byte) {code : Byte} {n : Nat} (s : State) (hfault : f.fault = none)
    (hm : f.matched = false) (hc : f.command = some code) (hn : payloadLength code = some n) (hle : n ≤ f.payload.length) :
    takeFrameByte p f b s = takeCheckByte p f code b s := by
  have hwants : f.wantsPayload code = false := by simpa [Frame.wantsPayload, hn] using hle
  simp only [takeFrameByte, hfault, hc, hm, hwants, Bool.false_eq_true, if_false]

theorem takeCheckByte_good (p : Port) (f : Frame) (code : Byte) (s : State) :
    takeCheckByte p f code f.crc s = answer p .ack (setFrame p (some { f with matched := true }) s) := if_pos rfl

/-- A frame byte's answer after its clocked bits, with the frame as it has left it. -/
theorem answer_setFrame_sclSeen (p : Port) (a : Ack) (f : Frame) (s : State) :
    answer p a (setFrame p (some f) (sclSeen p s)) =
      (s.setFe p ((s.fe p).clocked.answering a)).setMgmt p { s.mgmt p with frame := some f } := by
  rw [answer_setFrame, answer_sclSeen, setFrame_setFe]

/-- A mismatch of the check byte (R140, R145). -/
theorem takeCheckByte_bad (p : Port) {f : Frame} (code : Byte) {b : Byte} (s : State) (h : b ≠ f.crc) :
    takeCheckByte p f code b (sclSeen p s) = (s.setFe p ((s.fe p).clocked.answering .nak)).setMgmt p { s.mgmt p with
      frame := some { f with fault := some .check }
      firstError := some ((s.mgmt p).firstError.getD ⟨code, b, f.crc, f.payload.length + 1⟩)
      failures := min 255 ((s.mgmt p).failures + 1)
      guard := if (s.mgmt p).mode = .stopping then .guarded else (s.mgmt p).guard } := by
  have hguard : (match (s.mgmt p).mode with | .stopping => Guard.guarded | .persistent => (s.mgmt p).guard) =
      if (s.mgmt p).mode = .stopping then .guarded else (s.mgmt p).guard := by
    cases (s.mgmt p).mode <;> rfl
  rw [takeCheckByte, if_neg h, ← hguard]
  simp only [checkFailure, setFrame, sclSeen_eq, answer_eq, satInc_eq]
  simp <;> rfl

/-- Settles O16: by the position of the byte. -/
theorem frameBytesUpToTheCheck : Obligations.FrameBytesUpToTheCheck := by
  intro p b s f ho hst hf hfault hm after m
  rw [exec_frameByte, execFrameByte_assembling ho hst hf]
  refine ⟨fun n hc hb => ?_, fun hc hb => ?_, fun c n hc hn hlt => ?_, fun c n hc hn hle hb => ?_, fun c n hc hn hle hb => ?_⟩
  · rw [takeFrameByte_command p _ hfault hc hb, answer_setFrame_sclSeen]
  · rw [takeFrameByte_unknown p _ hfault hc hb, answer_setFrame_sclSeen]
  · rw [takeFrameByte_payload p b _ hfault hm hc hn hlt, answer_setFrame_sclSeen]
  · subst hb
    rw [takeFrameByte_check p _ _ hfault hm hc hn hle, takeCheckByte_good, answer_setFrame_sclSeen]
  · rw [takeFrameByte_check p _ _ hfault hm hc hn hle, takeCheckByte_bad p c s hb]

/-! ## The end of a frame (R142, R143, R148) -/

/-- The frame of port `p` in assembly ends at a STOP or at a repeated START, on the front end `g` that the condition leaves. -/
theorem exec_frameEnd {p : Port} {sda : Line} {eighth : Bool} {s : State} (ho : s.open p) (hb : (s.fe p).bus = .active)
    (hst : (s.ctx p).state = .mgmtWrite) {e : Instr} {g : FrontEnd}
    (he : (e = .stop p sda eighth ∧ g = (s.fe p).stoppedBy) ∨ (e = .repeatedStart p sda eighth ∧ g = (s.fe p).started)) :
    exec e s = .next (frameEnd p sda ((s.setFe p g).setCtx p .idle)) := by
  have hst' : ∀ g, ((s.setFe p g).ctx p).state = .mgmtWrite := fun _ => hst
  have hne : (s.ctx p).state ≠ .mgmtRead := by rw [hst]; decide
  rcases he with ⟨rfl, rfl⟩ | ⟨rfl, rfl⟩
  · rw [exec_stop_active sda eighth ho hb, cutOff_eq_self eighth hne]
    simp only [stopped, hst', toIdle_eq]
  · rw [exec_start_active sda eighth ho hb, cutOff_eq_self eighth hne]
    simp only [repeated, hst', toIdle_eq]

/-- What the end of a frame does once the frame has left the assembler. -/
theorem frameEnd_of_frame {p : Port} (sda : Line) {s : State} {f : Frame} (hf : (s.mgmt p).frame = some f) :
    (f.command = none → frameEnd p sda s = writeResult p 0x00#8 .length (setFrame p none s)) ∧
    ∀ code, f.command = some code →
      (f.fault = some .unknown → frameEnd p sda s = writeResult p code .unknown (setFrame p none s)) ∧
      (f.fault = some .check → frameEnd p sda s = writeResult p code .check (setFrame p none s)) ∧
      (f.fault = some .length → frameEnd p sda s = reported p code .length (setFrame p none s)) ∧
      (f.fault = none → f.matched = false → frameEnd p sda s = writeResult p code .length (setFrame p none s)) ∧
      ∀ c, f.fault = none → f.matched = true → commandOf code f.payload = some c →
        frameEnd p sda s = takeFrame p c sda (setFrame p none s) := by
  unfold frameEnd
  rw [hf]
  refine ⟨fun hc => ?_, fun code hc => ⟨fun hx => ?_, fun hx => ?_, fun hx => ?_, fun hx hm => ?_, fun c hx hm hcode => ?_⟩⟩
  · simp only [hc]
  · simp only [hc, hx]
  · simp only [hc, hx]
  · simp only [hc, hx, goodCheckNotice_writeResult]
  · simp only [hc, hx, hm, Bool.false_eq_true, if_false]
  · simp only [hc, hx, hm, if_true, hcode]

/-- A frame that is not executed leaves its result with the serial advanced, and no frame. -/
theorem writeResult_setFrame (p : Port) (code : Byte) (r : Result) (s : State) : writeResult p code r (setFrame p none s) =
    s.setMgmt p { s.mgmt p with frame := none, result := ⟨code, r, (s.mgmt p).result.serial + 1⟩ } := by
  simp [writeResult, setFrame]

/-- Settles O19: by the command byte, the fault and the check byte of the frame. -/
theorem framesNotExecuted : Obligations.FramesNotExecuted := by
  intro p sda eighth s f e g ho hb hst hf he u m wrote
  have hf' : (((s.setFe p g).setCtx p .idle).mgmt p).frame = some f := hf
  obtain ⟨hnone, hsome⟩ := frameEnd_of_frame sda hf'
  have hwrote : ∀ code r, writeResult p code r (setFrame p none ((s.setFe p g).setCtx p .idle)) = wrote code r := by
    intro code r
    rw [writeResult_setFrame]
    simp [wrote, u, m]
  rw [exec_frameEnd ho hb hst he]
  refine ⟨fun hc => ?_, fun c hc hx => ?_, fun c hc hx => ?_, fun c hc hx => ?_, fun c hc hx hm => ?_⟩
  · rw [hnone hc, hwrote]
  · rw [(hsome c hc).1 hx, hwrote]
  · rw [(hsome c hc).2.1 hx, hwrote]
  · rw [(hsome c hc).2.2.1 hx]; rfl
  · rw [(hsome c hc).2.2.2.1 hx hm, hwrote]

/-! ## The frame of each command (R139, R184, R185) -/

theorem hiByte_eq (w : Word16) : hiByte w = BitVec.ofNat 8 (w.toNat / 256) := by
  apply BitVec.eq_of_toNat_eq
  simp [hiByte, Nat.shiftRight_eq_div_pow]

theorem loByte_eq (w : Word16) : loByte w = BitVec.ofNat 8 (w.toNat % 256) := by
  apply BitVec.eq_of_toNat_eq
  simp [loByte]

theorem wordBytes_eq (w : Word16) : wordBytes w = [BitVec.ofNat 8 (w.toNat / 256), BitVec.ofNat 8 (w.toNat % 256)] := by
  rw [wordBytes, hiByte_eq, loByte_eq]

/-- The two bytes of a 16-bit value spell it. -/
@[simp] theorem word_hiByte_loByte (w : Word16) : word (hiByte w) (loByte w) = w := by
  have := w.isLt
  apply BitVec.eq_of_toNat_eq
  rw [word, BitVec.toNat_append, hiByte_eq, loByte_eq, ← Nat.shiftLeft_add_eq_or_of_lt (BitVec.isLt _)]
  simp only [BitVec.toNat_ofNat, Nat.shiftLeft_eq]
  omega

theorem payloadLength_commandCode (c : Command) : payloadLength (commandCode c) = some (commandPayload c).length := by
  cases c <;> rfl

/-- Code and payload of a command spell it. -/
theorem commandOf_command (c : Command) : commandOf (commandCode c) (commandPayload c) = some c := by
  have hlen := payloadLength_commandCode c
  rw [commandOf, if_neg (not_not.mpr hlen)]
  cases c <;> simp [commandCode, commandPayload, wordBytes]

theorem exec_rowOf (p : Port) (c : Command) (sda : Line) (s : State) : exec (rowOf p c sda) s = commandRow p c sda s := by
  cases c <;> rfl

/-- Settles O20: the frame is taken on the port at rest, as the command's row takes it. -/
theorem goodFrameRunsItsCommand : Obligations.GoodFrameRunsItsCommand := by
  intro p c sda eighth s ho hb hst hf
  have hrest : ∀ g : FrontEnd, g.hold = false →
      (((s.setFe p g).setCtx p .idle).setMgmt p { s.mgmt p with frame := none }).atRest p := by
    intro g hg
    exact ⟨ho.1.1, by simpa using hg, by simp [Context.idle]⟩
  have hrun : ∀ g : FrontEnd, g.hold = false → (Host.Outcome.next (frameEnd p sda ((s.setFe p g).setCtx p .idle)) : Out) =
      exec (rowOf p c sda) (((s.setFe p g).setCtx p .idle).setMgmt p { s.mgmt p with frame := none }) := by
    intro g hg
    have hf' : (((s.setFe p g).setCtx p .idle).mgmt p).frame = some (Frame.good s.mgmtAddr c) := hf
    obtain ⟨_, hsome⟩ := frameEnd_of_frame sda hf'
    rw [exec_rowOf, commandRow_atRest c sda (hrest g hg), (hsome (commandCode c) rfl).2.2.2.2 c rfl rfl (commandOf_command c)]
    rfl
  exact ⟨(exec_frameEnd ho hb hst (.inl ⟨rfl, rfl⟩)).trans (hrun _ ho.1.2.1),
    (exec_frameEnd (eighth := eighth) ho hb hst (.inr ⟨rfl, rfl⟩)).trans (hrun _ ho.1.2.1)⟩

end Sys2Proof.Machine
end

section
/-! PROOFS. Every command's frame is read back: a run of the machine over its bytes (R137 to R140, R184). -/

namespace Sys2Proof.Machine

/-! ## Runs -/

theorem coreRun_succ {k : Nat} {s t : State} (h : step s = .next t) : Host.Core.run core (k + 1) s = Host.Core.run core k t := by
  have h' : core.step s = .next t := h
  simp only [Host.Core.run, h']

theorem coreRun_add {m n : Nat} {s t : State} (h : Host.Core.run core m s = .next t) :
    Host.Core.run core (m + n) s = Host.Core.run core n t := by
  induction m generalizing s with
  | zero =>
    obtain rfl : s = t := Host.Outcome.next.inj h
    rw [Nat.zero_add]
  | succ m ih =>
    have hs : core.step s = step s := rfl
    rw [Nat.succ_add]
    simp only [Host.Core.run, hs] at h ⊢
    cases hstep : step s with
    | next u => rw [hstep] at h; exact ih h
    | fault r => rw [hstep] at h; exact nomatch h
    | refused r => rw [hstep] at h; exact nomatch h

/-! ## A run over the bytes of a frame -/

/-- Port `p` of `t` assembles `f`, with its unit otherwise as in `s`, and `rest` waits: what a run over frame bytes carries along. -/
structure Assembling (s t : State) (p : Port) (f : Frame) (rest : List Instr) : Prop where
  opened : t.open p
  state : (t.ctx p).state = .mgmtWrite
  unit : t.mgmt p = { s.mgmt p with frame := some f }
  pending : t.pending = rest

/-- A byte that frame `f` takes and acknowledges leaves the frame `f'`. -/
abbrev Frame.takes (p : Port) (f : Frame) (b : Byte) (f' : Frame) : Prop :=
  ∀ u : State, takeFrameByte p f b u = answer p .ack (setFrame p (some f') u)

/-- One byte of the queue is taken. -/
theorem Assembling.step {s t : State} {p : Port} {f f' : Frame} {b : Byte} {rest : List Instr}
    (h : Assembling s t p f (.frameByte p b :: rest)) (htake : f.takes p b f') :
    ∃ u, Machine.step t = .next u ∧ Assembling s u p f' rest ∧ (u.fe p).drive = .low := by
  obtain ⟨hopen, hst, hunit, hpend⟩ := h
  have hopen' : (t.setPending rest).open p := hopen
  have hf : ((t.setPending rest).mgmt p).frame = some f := by
    show (t.mgmt p).frame = some f
    rw [hunit]
  refine ⟨((t.setPending rest).setFe p (((t.setPending rest).fe p).clocked.answering .ack)).setMgmt p
      { (t.setPending rest).mgmt p with frame := some f' }, ?_, ⟨⟨⟨?_, ?_, ?_⟩, ?_⟩, ?_, ?_, ?_⟩, ?_⟩
  · rw [Machine.step, hpend]
    show exec (.frameByte p b) (t.setPending rest) = _
    rw [exec_frameByte, execFrameByte_assembling hopen' hst hf, htake, answer_setFrame_sclSeen]
  · exact hopen.1.1
  · simp [FrontEnd.answering]
  · exact hopen.1.2.2
  · intro hread
    have hread : (t.ctx p).state = .readData := hread
    rw [hst] at hread
    exact nomatch hread
  · exact hst
  · simp [hunit]
  · rfl
  · simp [FrontEnd.answering]

/-- The payload bytes are taken one after the other, while the payload is no longer than its code fixes. -/
theorem Assembling.payload {s t : State} {p : Port} {f : Frame} {code : Byte} {n : Nat} (l : List Byte) {rest : List Instr}
    (h : Assembling s t p f (l.map (Instr.frameByte p) ++ rest)) (hfault : f.fault = none) (hm : f.matched = false)
    (hc : f.command = some code) (hn : payloadLength code = some n) (hlen : f.payload.length + l.length ≤ n) :
    ∃ u, Host.Core.run core l.length t = .next u ∧
      Assembling s u p { f with payload := f.payload ++ l, crc := l.foldl crcFold f.crc } rest := by
  induction l generalizing t f with
  | nil =>
    refine ⟨t, rfl, ?_⟩
    simpa using h
  | cons b l ih =>
    have hlt : f.payload.length < n := by simp only [List.length_cons] at hlen; omega
    obtain ⟨u, hstep, hu, _⟩ := h.step (f' := { f with payload := f.payload ++ [b], crc := crcFold f.crc b })
      fun u => takeFrameByte_payload p b u hfault hm hc hn hlt
    obtain ⟨v, hrun, hv⟩ := ih hu hfault hm hc (by
      simp only [List.length_cons, List.length_append, List.length_nil] at hlen ⊢
      omega)
    refine ⟨v, (coreRun_succ hstep).trans hrun, ?_⟩
    simpa using hv

/-- The bytes of a command's frame leave it complete and good in the assembler. -/
theorem coreRun_frameBytes (c : Command) {p : Port} {s : State} {rest : List Instr} (ho : s.open p) (hst : (s.ctx p).state = .mgmtWrite)
    (hf : (s.mgmt p).frame = some (Frame.start s.mgmtAddr))
    (hpend : s.pending = (frameBytes s.mgmtAddr c).map (Instr.frameByte p) ++ rest) :
    ∃ t, Host.Core.run core (frameBytes s.mgmtAddr c).length s = .next t ∧
      Assembling s t p (Frame.good s.mgmtAddr c) rest ∧ (t.fe p).drive = .low := by
  have hlen := payloadLength_commandCode c
  have hstart : Assembling s s p (Frame.start s.mgmtAddr) (.frameByte p (commandCode c) ::
      ((commandPayload c).map (Instr.frameByte p) ++ .frameByte p (runningCheck s.mgmtAddr (commandCode c :: commandPayload c)) :: rest)) :=
    ⟨ho, hst, by rw [← hf], by rw [hpend]; simp [frameBytes]⟩
  obtain ⟨t1, hstep1, h1, _⟩ := hstart.step fun u => takeFrameByte_command p u rfl rfl hlen
  obtain ⟨t2, hrun2, h2⟩ := h1.payload (commandPayload c) rfl rfl rfl hlen (by simp [Frame.start])
  obtain ⟨t3, hstep3, h3, hlow⟩ := h2.step (f' := Frame.good s.mgmtAddr c) fun u => by
    rw [takeFrameByte_check p _ u rfl rfl rfl hlen (by simp [Frame.start])]
    exact takeCheckByte_good p _ (commandCode c) u
  refine ⟨t3, ?_, h3, hlow⟩
  have hcount : (frameBytes s.mgmtAddr c).length = (commandPayload c).length + 1 + 1 := by simp [frameBytes]
  rw [hcount, coreRun_succ hstep1, coreRun_add hrun2, coreRun_succ hstep3]
  rfl

/-! ## The check byte (R139) -/

theorem crcShift_eq (v : Byte) : crcShift v = if 128 ≤ v.toNat then (v <<< 1) ^^^ 0x2F#8 else v <<< 1 := by
  have hmsb : v.msb = decide (128 ≤ v.toNat) := BitVec.msb_eq_decide v
  rw [crcShift, hmsb]
  by_cases h : 128 ≤ v.toNat <;> simp [h]

theorem writeForm_eq (addr : Addr7) : writeForm addr = BitVec.ofNat 8 (2 * addr.toNat) := by
  have := addr.isLt
  apply BitVec.eq_of_toNat_eq
  rw [writeForm, BitVec.toNat_append, ← Nat.shiftLeft_add_eq_or_of_lt (BitVec.isLt _)]
  simp only [BitVec.toNat_ofNat, Nat.shiftLeft_eq]
  omega

/-- Settles O18: the run over the frame's bytes, each command's code and payload, and the check value. -/
theorem everyCommandsFrameIsReadBack : Obligations.EveryCommandsFrameIsReadBack := by
  refine ⟨fun c p s rest ho hst hf hpend => ⟨commandOf_command c, ?_⟩, ?_, fun v b => ⟨?_, fun addr l => ?_⟩, by decide +kernel, by decide +kernel⟩
  · obtain ⟨t, hrun, h, hlow⟩ := coreRun_frameBytes c ho hst hf hpend
    exact ⟨t, hrun, h.unit, hlow, h.pending⟩
  · intro hi lo sent x y z u w i
    have hw : ∀ w, wordBytes w = [hi w, lo w] := wordBytes_eq
    simp only [sent, commandCode, commandPayload, hw]
    simp
  · simp only [crcFold, crcShift_eq]
  · rw [runningCheck, writeForm_eq]
    rfl

end Sys2Proof.Machine
end

section
/-! PROOFS. Written bytes, answers to read bytes, and the answers of targets (R20, R48 to R58, R69, R90, R101, R151). -/

namespace Sys2Proof.Machine

/-! ## A refusal that gives up the segment, and a transfer begun -/

/-- A byte of a held access is refused: record, denied, NAK, and the segment closed with `v` handed back (R52). -/
theorem letGo_refuse {p : Port} {s : State} {a : Access} {d : Seg} (ha : (s.ctx p).access = some a) (hd : a.held = some d)
    (k : Kind) (i : Option Word16) (o : Nat) (v : Option Word16) : letGo p v none (refuse p k i o s) =
      (((((s.setCursors (handed s a v)).setLog (logged s p a k i o)).setCounters (denied s a)).setFe p
        ((s.fe p).answering .nak)).setCtx p ⟨.refusing, some (a.ended v), (s.ctx p).retained⟩).setSeg d ((s.seg d).closed none) := by
  have ha' : ((refuse p k i o s).ctx p).access = some a := by rw [refuse_access]; exact ha
  rw [letGo_eq ha' hd, refuse_offset_eq ha]
  simp

theorem beginTransfer_eq (p : Port) (d : Seg) (x : Transfer) (s : State) :
    beginTransfer p d x s = (s.setFe p (s.fe p).holding).setSeg d { s.seg d with transfer := some x } := by
  simp [beginTransfer, holdClock_eq]

/-- A byte that is clocked in and forwarded: the hold begins whatever the timer has counted. -/
theorem beginTransfer_sclSeen (p : Port) (d : Seg) (x : Transfer) (s : State) :
    beginTransfer p d x (sclSeen p s) = (s.setFe p (s.fe p).holding).setSeg d { s.seg d with transfer := some x } := by
  simp [beginTransfer_eq, sclSeen_eq]

theorem accessing_sclSeen {p : Port} {st : CtxState} {a : Access} {d : Seg} {s : State} (h : s.accessing p st a d) :
    heldIn p st (sclSeen p s) = some (a, d) := by
  rw [heldIn_sclSeen, heldIn_eq_some_iff]
  exact h

/-! ## Written bytes (O21) -/

/-- A data byte that its checks refuse (R52). -/
theorem refuseDataByte_sclSeen {p : Port} {st : CtxState} {a : Access} {d : Seg} {s : State} (h : s.accessing p st a d) (k : Kind) :
    refuseDataByte p a k (sclSeen p s) = (((((s.setCursors (handed s a a.cursor)).setLog
      (logged s p a k (if a.copy.width = .zero then none else a.cursor) a.count)).setCounters (denied s a)).setFe p
        ((s.fe p).clocked.answering .nak)).setCtx p ⟨.refusing, some (a.ended a.cursor), (s.ctx p).retained⟩).setSeg d
          ((s.seg d).closed none) := by
  obtain ⟨_, ha, hd⟩ := h
  rw [refuseDataByte, letGo_refuse (s := sclSeen p s) ha hd, recordIndex_eq]
  simp [sclSeen_eq]

theorem exec_writeDataByte_forwarded {p : Port} {a : Access} {d : Seg} {s : State} (b : Byte) (ho : s.open p)
    (h : s.accessing p .writeData a d) (hw : writeCheck a = none) : exec (.writeDataByte p b) s =
      .next ((s.setFe p (s.fe p).holding).setSeg d { s.seg d with transfer := some (.dataByte b) }) := by
  show execWriteDataByte p b s = _
  simp only [execWriteDataByte, upstream_open _ ho, accessing_sclSeen h, hw, beginTransfer_sclSeen]

theorem exec_writeDataByte_refused {p : Port} {a : Access} {d : Seg} {s : State} {k : Kind} (b : Byte) (ho : s.open p)
    (h : s.accessing p .writeData a d) (hw : writeCheck a = some k) :
    exec (.writeDataByte p b) s = .next (refuseDataByte p a k (sclSeen p s)) := by
  show execWriteDataByte p b s = _
  simp only [execWriteDataByte, upstream_open _ ho, accessing_sclSeen h, hw]

/-- Settles O21: by the outcome of the checks. -/
theorem writtenBytesForwardedOrRefused : Obligations.WrittenBytesForwardedOrRefused := by
  intro p b s a d ho
  refine ⟨fun h => ?_, fun h => ?_⟩
  · show execWriteIndexByte p b s = _
    simp only [execWriteIndexByte, upstream_open _ ho, accessing_sclSeen h, beginTransfer_sclSeen]
  · intro inWindow inLimit refusedAs
    have hrefused : ∀ k, writeCheck a = some k → exec (.writeDataByte p b) s = .next (refusedAs k) := fun k hw => by
      rw [exec_writeDataByte_refused b ho h hw, refuseDataByte_sclSeen h]
    rcases writeCheck_cases a with ⟨hin, hl, hw⟩ | ⟨hout, hw⟩ | ⟨hin, hl, hw⟩
    · exact ⟨fun _ => exec_writeDataByte_forwarded b ho h hw, fun hn => absurd hin hn, fun hn => absurd hl hn.2⟩
    · exact ⟨fun hn => absurd hn.1 hout, fun _ => hrefused _ hw, fun hn => absurd hn.1 hout⟩
    · exact ⟨fun hn => absurd hn.2 hl, fun hn => absurd hin hn, fun _ => hrefused _ hw⟩

/-! ## Answers to read bytes (O22, O24) -/

/-- The next read byte of the access lies inside its read window, or no window is checked (R55, R59). -/
abbrev Access.readsInside (a : Access) : Prop := a.copy.width = .zero ∨ a.cursor = none ∨
  ∃ i ∈ a.cursor, a.copy.readWin.low.toNat ≤ i.toNat ∧ i.toNat ≤ a.copy.readWin.high.toNat

/-- The window comes first among the checks before a read byte, the limit last (R55, R56). -/
theorem readCheck_cases (a : Access) :
    (a.readsInside ∧ a.limitAllows ∧ readCheck a = none) ∨ (¬ a.readsInside ∧ readCheck a = some .readWindow) ∨
      (a.readsInside ∧ ¬ a.limitAllows ∧ readCheck a = some .length) := by
  have hlimit := withinLimit_iff a
  have houtside : ¬ a.readsInside → readCheck a = some .readWindow := by
    intro h
    unfold readCheck
    cases hc : a.cursor <;> simp_all [Access.readsInside, Window.covers]
  have hinside : a.readsInside → readCheck a = if withinLimit a.copy (a.count + 1) then none else some .length := by
    rintro (hz | hc | ⟨i, hi, hlow, hhigh⟩)
    · simp [readCheck, hz]
    · simp [readCheck, hc]
    · have hi' : a.cursor = some i := hi
      simp [readCheck, hi', Window.covers, hlow, hhigh]
  by_cases hin : a.readsInside
  · by_cases hl : a.limitAllows
    · exact .inl ⟨hin, hl, by rw [hinside hin, if_pos (hlimit.mpr hl)]⟩
    · exact .inr (.inr ⟨hin, hl, by rw [hinside hin, if_neg (hl ∘ hlimit.mp)]⟩)
  · exact .inr (.inl ⟨hin, houtside hin⟩)

/-- A read that is cut short (R56). -/
theorem cutShort_sclSeen {p : Port} {st : CtxState} {a : Access} {d : Seg} {s : State} (h : s.accessing p st a d) (k : Kind) :
    cutShort p a k (sclSeen p s) = (((((s.setCursors (handed s a a.cursor)).setLog
      (logged s p a k (if a.copy.width = .zero then none else a.cursor) a.count)).setCounters (denied s a)).setFe p
        ((s.fe p).clocked.sending 0xFF#8)).setCtx p ⟨.filler, some (a.ended a.cursor), (s.ctx p).retained⟩).setSeg d
          ((s.seg d).closed (some .nak)) := by
  obtain ⟨_, ha, hd⟩ := h
  have ha' : ((penalize p k (recordIndex a) a.count (sclSeen p s)).ctx p).access = some a := by rw [penalize_ctx]; exact ha
  have ha'' : ((sclSeen p s).ctx p).access = some a := ha
  rw [cutShort, letGo_eq ha' hd, penalize_eq ha'', recordIndex_eq, deliver_eq, setState_eq]
  simp [sclSeen_eq]

theorem exec_readByteAck_fetches {p : Port} {a : Access} {d : Seg} {s : State} (ho : s.open p)
    (h : s.accessing p .readData a d) (hw : readCheck a = none) : exec (.readByteAck p) s =
      .next ((s.setFe p (s.fe p).holding).setSeg d { s.seg d with transfer := some .fetch }) := by
  show execReadByteAck p s = _
  simp only [execReadByteAck, upstream_open _ ho, accessing_sclSeen h, hw, beginTransfer_sclSeen]

theorem exec_readByteAck_cut {p : Port} {a : Access} {d : Seg} {s : State} {k : Kind} (ho : s.open p)
    (h : s.accessing p .readData a d) (hw : readCheck a = some k) :
    exec (.readByteAck p) s = .next (cutShort p a k (sclSeen p s)) := by
  show execReadByteAck p s = _
  simp only [execReadByteAck, upstream_open _ ho, accessing_sclSeen h, hw]

/-- Settles O22: by the outcome of the checks. -/
theorem readAckFetchesOrCutsShort : Obligations.ReadAckFetchesOrCutsShort := by
  intro p s a d ho h inWindow inLimit cutAs
  have hcut : ∀ k, readCheck a = some k → exec (.readByteAck p) s = .next (cutAs k) := fun k hw => by
    rw [exec_readByteAck_cut ho h hw, cutShort_sclSeen h]
  rcases readCheck_cases a with ⟨hin, hl, hw⟩ | ⟨hout, hw⟩ | ⟨hin, hl, hw⟩
  · exact ⟨fun _ => exec_readByteAck_fetches ho h hw, fun hn => absurd hin hn, fun hn => absurd hl hn.2⟩
  · exact ⟨fun hn => absurd hn.1 hout, fun _ => hcut _ hw, fun hn => absurd hn.1 hout⟩
  · exact ⟨fun hn => absurd hn.2 hl, fun hn => absurd hin hn, fun _ => hcut _ hw⟩

/-- The ACK of a view byte advances the read and has the next byte delivered (R151). -/
theorem viewAnswer_ack (p : Port) (r : ReadPosition) (s : State) : viewAnswer p r .ack (sclSeen p s) =
    (s.setFe p ((s.fe p).clocked.sending (r.snapshot.getD ((r.pos + 1) % r.snapshot.length) 0xFF#8))).setMgmt p
      ((s.mgmt p).viewed r) := by
  simp [viewAnswer, advanceView_eq, sclSeen_eq, deliver_eq, byteAt]

/-- The NAK of a view byte advances the read and lets both lines go (R151). -/
theorem viewAnswer_nak (p : Port) (r : ReadPosition) (s : State) : viewAnswer p r .nak (sclSeen p s) =
    (s.setFe p (s.fe p).clocked.silent).setMgmt p ((s.mgmt p).viewed r) := by
  simp [viewAnswer, advanceView_eq, sclSeen_eq, releaseLines_eq]

theorem exec_fillerByteAnswer_ack {p : Port} {s : State} (ho : s.open p) (hst : (s.ctx p).state = .filler) :
    exec (.fillerByteAnswer p .ack) s = .next (deliver p 0xFF#8 (sclSeen p s)) := by
  show execFillerByteAnswer p .ack s = _
  rw [execFillerByteAnswer, upstream_open _ ho]
  exact if_pos hst

theorem exec_fillerByteAnswer_nak {p : Port} {s : State} (ho : s.open p) (hst : (s.ctx p).state = .filler) :
    exec (.fillerByteAnswer p .nak) s = .next (setState p .refusing (releaseLines p (sclSeen p s))) := by
  show execFillerByteAnswer p .nak s = _
  rw [execFillerByteAnswer, upstream_open _ ho]
  exact if_pos hst

theorem exec_viewByteAnswer {p : Port} (a : Ack) {s : State} {r : ReadPosition} {b : Byte} (ho : s.open p)
    (hst : (s.ctx p).state = .mgmtRead) (hr : (s.mgmt p).reading = some r) (hb : (s.fe p).byte = .delivering b) :
    exec (.viewByteAnswer p a) s = .next (viewAnswer p r a (sclSeen p s)) := by
  have hst' : ((sclSeen p s).ctx p).state = .mgmtRead := hst
  have hr' : ((sclSeen p s).mgmt p).reading = some r := hr
  have hdel : delivering p (sclSeen p s) = true := by simp [delivering, sclSeen_eq, FrontEnd.clocked, hb]
  show execViewByteAnswer p a s = _
  rw [execViewByteAnswer, upstream_open _ ho]
  simp only [hst', hr', hdel, if_true]

/-- Settles O24: the answers by their rows, and the position that a view byte advances. -/
theorem fillerAndViewAnswers : Obligations.FillerAndViewAnswers := by
  intro p s ho
  refine ⟨fun hst => ⟨?_, ?_⟩, fun r b hst hr hb => ⟨?_, ?_⟩⟩
  · rw [exec_fillerByteAnswer_ack ho hst]
    simp [deliver_eq, sclSeen_eq]
  · rw [exec_fillerByteAnswer_nak ho hst]
    simp [releaseLines_eq, setState_eq, sclSeen_eq]
  · rw [exec_viewByteAnswer .ack ho hst hr hb, viewAnswer_ack]
    rfl
  · rw [exec_viewByteAnswer .nak ho hst hr hb, viewAnswer_nak]
    rfl

/-! ## Answers of targets (O26 to O29) -/

theorem endTransfer_eq (d : Seg) (s : State) : endTransfer d s = s.setSeg d { s.seg d with transfer := none } := rfl

/-- A byte that its target refuses: the refusal, and the segment closed after the transfer that has ended (R48, R49, R51). -/
theorem refuseByTarget_endTransfer {p : Port} {s : State} {a : Access} {d : Seg} (ha : (s.ctx p).access = some a)
    (hd : a.held = some d) (k : Kind) (i : Option Word16) (o : Nat) (v : Option Word16) :
    refuseByTarget p k i o v (endTransfer d s) =
      (((((s.setCursors (handed s a v)).setLog (logged s p a k i o)).setCounters (denied s a)).setFe p
        ((s.fe p).answering .nak)).setCtx p ⟨.refusing, some (a.ended v), (s.ctx p).retained⟩).setSeg d
          ({ s.seg d with transfer := none }.closed none) := by
  have ha' : ((endTransfer d s).ctx p).access = some a := ha
  rw [refuseByTarget, letGo_refuse ha' hd, endTransfer_eq]
  simp

/-- The holder that an answer of the target finds. -/
theorem State.transferring.holderAccess {d : Seg} {x : Transfer} {p : Port} {a : Access} {s : State}
    (h : s.transferring d x p a) : Machine.holderAccess d s = some (p, a) := by
  obtain ⟨_, _, hp, ha, _⟩ := h
  exact holderAccess_eq_some.mpr ⟨hp, ha⟩

theorem exec_targetAddressAnswer_ack {d : Seg} {again : Bool} {y : Addr7} {dir : Dir} {p : Port} {a : Access} {s : State}
    (ninth : Bool) (h : s.transferring d (.start again y dir) p a) :
    exec (.targetAddressAnswer d .ack ninth) s = .next (opened p a d ninth (endTransfer d s)) := by
  have hholder := h.holderAccess
  obtain ⟨hr, hx, _⟩ := h
  show execTargetAddressAnswer d .ack s ninth = _
  rw [execTargetAddressAnswer, running_awake _ hr]
  simp only [hx, hholder]

theorem exec_targetAddressAnswer_nak {d : Seg} {again : Bool} {y : Addr7} {dir : Dir} {p : Port} {a : Access} {s : State}
    (ninth : Bool) (h : s.transferring d (.start again y dir) p a) : exec (.targetAddressAnswer d .nak ninth) s =
      .next (refuseByTarget p .targetNak (recordIndex a) 0 a.cursor (endTransfer d s)) := by
  have hholder := h.holderAccess
  obtain ⟨hr, hx, _⟩ := h
  show execTargetAddressAnswer d .nak s ninth = _
  rw [execTargetAddressAnswer, running_awake _ hr]
  simp only [hx, hholder]

theorem opened_write {p : Port} {a : Access} {s : State} (d : Seg) (ninth : Bool) (ha : (s.ctx p).access = some a)
    (hdir : a.dir = .write) : opened p a d ninth s = ((s.setCounters (accepted s a)).setFe p ((s.fe p).answering .ack)).setCtx p
      { s.ctx p with state := if a.copy.width = .zero then .writeData else .writeIndex } := by
  have hstart : writeStart a.copy = if a.copy.width = .zero then .writeData else .writeIndex := by
    unfold writeStart
    cases a.copy.width <;> rfl
  simp only [opened, hdir, claimAccepted_eq ha, answer_eq, setState_eq, hstart]
  simp

theorem opened_read_ninth {p : Port} {a : Access} {s : State} (d : Seg) (ha : (s.ctx p).access = some a) (hdir : a.dir = .read) :
    opened p a d true s = (((s.setCounters (accepted s a)).setFe p (s.fe p).holding).setCtx p
      { s.ctx p with state := .readData }).setSeg d { s.seg d with transfer := some .fetch } := by
  have hhold : ((s.fe p).answering .ack).holding = (s.fe p).holding := rfl
  simp only [opened, hdir, claimAccepted_eq ha, answer_eq, setState_eq, if_true, beginTransfer_eq]
  simp [hhold]

theorem opened_read_early {p : Port} {a : Access} {s : State} (d : Seg) (ha : (s.ctx p).access = some a) (hdir : a.dir = .read) :
    opened p a d false s = ((s.setCounters (accepted s a)).setFe p ((s.fe p).answering .ack)).setCtx p
      { s.ctx p with state := .readData } := by
  simp only [opened, hdir, claimAccepted_eq ha, answer_eq, setState_eq, Bool.false_eq_true, if_false]
  simp

/-- Settles O26: by the answer, the direction and the ninth bit. -/
theorem targetAddressAnswered : Obligations.TargetAddressAnswered := by
  intro d again y dir p a s h
  obtain ⟨_, _, _, ha, hd⟩ := id h
  have ha' : ((endTransfer d s).ctx p).access = some a := ha
  refine ⟨fun ninth hdir => ?_, fun hdir => ?_, fun hdir => ?_, fun ninth => ?_⟩
  · rw [exec_targetAddressAnswer_ack ninth h, opened_write d ninth ha' hdir, endTransfer_eq]
    simp
  · rw [exec_targetAddressAnswer_ack true h, opened_read_ninth d ha' hdir, endTransfer_eq]
    simp
  · rw [exec_targetAddressAnswer_ack false h, opened_read_early d ha' hdir, endTransfer_eq]
    simp
  · rw [exec_targetAddressAnswer_nak ninth h, refuseByTarget_endTransfer ha hd, recordIndex_eq]

/-- Settles O27: the byte taken, or the refusal without an index. -/
theorem indexByteAnswered : Obligations.IndexByteAnswered := by
  intro d b p a s h hret v full
  have hholder := h.holderAccess
  obtain ⟨hr, hx, _, ha, hd⟩ := h
  refine ⟨?_, ?_⟩
  · show execIndexByteAnswer d .ack s = _
    rw [execIndexByteAnswer, running_awake _ hr]
    simp only [hx, hholder, indexTaken, Access.takeIndex, answer_eq, endTransfer_eq]
    simp [full, v]
  · show execIndexByteAnswer d .nak s = _
    rw [execIndexByteAnswer, running_awake _ hr]
    simp only [hx, hholder, refuseByTarget_endTransfer ha hd, hret]

/-- The cursor after one byte, in the words of the statements (R75). -/
theorem advance_eq (w : IndexWidth) (v : Option Word16) : advance w v = match w with
    | .zero => none
    | .one => v.map (fun i => (i + 1) &&& 0x00FF#16)
    | .two => v.map (fun i => i + 1) := by
  cases w <;> cases v <;> rfl

theorem passed_eq (a : Access) : a.passed = { a with
    count := min 255 (a.count + 1)
    cursor := match a.copy.width with
      | .zero => none
      | .one => a.cursor.map (fun i => (i + 1) &&& 0x00FF#16)
      | .two => a.cursor.map (fun i => i + 1) } := by
  rw [Access.passed, advance_eq, satInc_eq]

/-- Settles O28: the byte passed, or the refusal with an absent cursor handed back. -/
theorem dataByteAnswered : Obligations.DataByteAnswered := by
  intro d b p a s h
  have hholder := h.holderAccess
  obtain ⟨hr, hx, _, ha, hd⟩ := h
  refine ⟨?_, ?_⟩
  · show execDataByteAnswer d .ack s = _
    rw [execDataByteAnswer, running_awake _ hr]
    simp only [hx, hholder, setAccess, answer_eq, endTransfer_eq, passed_eq]
    simp <;> rfl
  · show execDataByteAnswer d .nak s = _
    rw [execDataByteAnswer, running_awake _ hr]
    simp only [hx, hholder, refuseByTarget_endTransfer ha hd, recordIndex_eq]

/-- Settles O29: the byte counted and delivered. -/
theorem fetchedByteIsDelivered : Obligations.FetchedByteIsDelivered := by
  intro d b p a s h
  have hholder := h.holderAccess
  obtain ⟨hr, hx, _, ha, hd⟩ := h
  show execFetchedByte d b s = _
  rw [execFetchedByte, running_awake _ hr]
  simp only [hx, hholder, setAccess, deliver_eq, endTransfer_eq, passed_eq]
  simp <;> rfl

/-! ## Transfers that reach no context (O30) -/

/-- Settles O30: by the transfer that ends, and by whether an OPENING waited for it. -/
theorem transfersThatReachNoContext : Obligations.TransfersThatReachNoContext := by
  intro d s hr
  refine ⟨fun sda hx => ⟨fun hafter => ?_, fun p a hafter hp ha => ?_⟩, fun hnone => ?_⟩
  · show execNakOfByteEnd d sda s = _
    rw [execNakOfByteEnd, running_awake _ hr]
    simp only [hx, hafter, Bool.false_eq_true, if_false, endTransfer_eq]
  · have hholder : holderAccess d s = some (p, a) := holderAccess_eq_some.mpr ⟨hp, ha⟩
    show execNakOfByteEnd d sda s = _
    rw [execNakOfByteEnd, running_awake _ hr]
    simp only [hx, hafter, if_true, hholder, beginOpening_eq, endTransfer_eq]
    simp
  · have hholder : holderAccess d s = none := by simp only [holderAccess, hnone]
    refine ⟨fun x ninth again y dir hx => ?_, fun x b hx => ?_, fun x b hx => ?_, fun b hx => ?_⟩
    · show execTargetAddressAnswer d x s ninth = _
      rw [execTargetAddressAnswer, running_awake _ hr]
      simp only [hx, hholder, endTransfer_eq]
    · show execIndexByteAnswer d x s = _
      rw [execIndexByteAnswer, running_awake _ hr]
      simp only [hx, hholder, endTransfer_eq]
    · show execDataByteAnswer d x s = _
      rw [execDataByteAnswer, running_awake _ hr]
      simp only [hx, hholder, endTransfer_eq]
    · show execFetchedByte d b s = _
      rw [execFetchedByte, running_awake _ hr]
      simp only [hx, hholder]

end Sys2Proof.Machine
end

section
/-! PROOFS. How a segment leaves HELD and RECOVERING (R63, R64, R69, R91 to R94, R97 to R101, R113): ends of closes and recoveries, stalls, and the
end of bus-clear inside OPENING. -/

namespace Sys2Proof.Machine

/-! ## Leaving in order and in fault, in the words of the statements -/

/-- A pending configuration turns enable off (R97). -/
abbrev Segment.turnsOff (g : Segment) : Prop := g.pendingConfig.isSome ∧ (g.pendingConfig.getD g.config).enable = false

theorem Segment.ite_pendsOff {α : Type} (g : Segment) (x y : α) : (if g.pendsOff then x else y) = if g.turnsOff then x else y := by
  by_cases h : g.turnsOff
  · rw [if_pos h, if_pos (g.pendsOff_iff.mpr h)]
  · rw [if_neg h, if_neg (h ∘ g.pendsOff_iff.mp)]

theorem Segment.pendsOff_eq_false {g : Segment} (h : ∀ c ∈ g.pendingConfig, c.enable = true) : g.pendsOff = false := by
  rw [← Bool.not_eq_true, Segment.pendsOff_iff]
  rintro ⟨hsome, hoff⟩
  obtain ⟨c, hc⟩ := Option.isSome_iff_exists.mp hsome
  rw [hc] at hoff
  rw [Option.getD_some, h c hc] at hoff
  exact nomatch hoff

/-- A segment that is IDLE, with its pending configuration applied and its lists kept (R91, R97). -/
def Segment.idled (g : Segment) : Segment :=
  { g with
    state := .idle, holder := none, bus := .idle, transfer := none, openAfter := false
    config := g.pendingConfig.getD g.config, pendingConfig := none }

/-- A segment that its configuration has turned off (R97). -/
def Segment.disabled (g : Segment) : Segment := { g.idled with state := .disabled, lease := none, waiters := [], requests := [] }

/-- A segment that a failed recovery leaves (R97, R99). -/
def Segment.faulted (g : Segment) : Segment :=
  { g.idled with state := if g.turnsOff then .disabled else .fault, lease := none, waiters := [], requests := [] }

theorem leaveInOrder_off {d : Seg} {s : State} (sda : Line) (h : (s.seg d).pendsOff = true) :
    leaveInOrder d sda s = refuseDown (s.seg d).asking [] (s.setSeg d (s.seg d).disabled) := by
  rw [leaveInOrder]
  exact if_pos h

theorem leaveInOrder_on {d : Seg} {s : State} (sda : Line) (h : (s.seg d).pendsOff = false) :
    leaveInOrder d sda s = takeUpRequests d sda (answerWaiters d sda (s.setSeg d (s.seg d).idled)) := by
  rw [leaveInOrder]
  exact if_neg (by rw [h]; exact Bool.false_ne_true)

theorem leaveInFault_eq (d : Seg) (stuck : List Report) (s : State) :
    leaveInFault d stuck s = refuseDown (s.seg d).asking stuck (s.setSeg d (s.seg d).faulted) := by
  simp only [leaveInFault, Segment.ite_pendsOff]
  rfl

theorem refuseDown_nil (extra : List Report) (s : State) : refuseDown [] extra s = handTogether extra s := rfl

theorem Segment.asking_eq_nil {g : Segment} (hw : g.waiters = []) (hr : g.requests = []) : g.asking = [] := by
  simp [Segment.asking, Segment.waiting, hw, hr]

theorem answerWaiters_nil {d : Seg} {s : State} (sda : Line) (h : (s.seg d).waiters = []) : answerWaiters d sda s = s := by
  rw [answerWaiters, h]
  rfl

/-- A segment that nothing waits for leaves alone (R91, R97). -/
theorem leaveInOrder_quiet {d : Seg} {s : State} (sda : Line) (hw : (s.seg d).waiters = []) (hr : (s.seg d).requests = []) :
    leaveInOrder d sda s = s.setSeg d { (s.seg d).idled with
      state := if (s.seg d).turnsOff then .disabled else .idle
      lease := if (s.seg d).turnsOff then none else (s.seg d).lease } := by
  by_cases h : (s.seg d).turnsOff
  · rw [leaveInOrder_off sda ((s.seg d).pendsOff_iff.mpr h), Segment.asking_eq_nil hw hr, refuseDown_nil, if_pos h, if_pos h]
    simp [handTogether, Segment.disabled, Segment.idled, hw, hr]
  · have hoff : (s.seg d).pendsOff = false := by rw [← Bool.not_eq_true]; exact h ∘ (s.seg d).pendsOff_iff.mp
    rw [leaveInOrder_on sda hoff, answerWaiters_nil sda (by simpa [Segment.idled] using hw),
      takeUpRequests_nil sda (by simpa [Segment.idled] using hr), if_neg h, if_neg h]
    rfl

/-! ## The events by which a segment leaves -/

/-- CLOSE_END, RECOVERY_END with SDA released, and OPENING_BUS_CLEAR_END with SDA released where no holder is left: the events at which segment `d`
leaves in order (R91, R98, R101). -/
abbrev State.leavesBy (s : State) (d : Seg) (sda : Line) (e : Instr) : Prop :=
  (e = .closeEnd d sda ∧ (s.seg d).state = .held ∧ (s.seg d).transfer = none) ∨
    (e = .recoveryEnd d .high sda ∧ (s.seg d).state = .recovering) ∨
    (e = .openingBusClearEnd d .high sda ∧ (s.seg d).state = .held ∧ (s.seg d).transfer = some .busClear)

theorem exec_closeEnd {d : Seg} {s : State} (sda : Line) (hr : s.inReset = false) (hst : (s.seg d).state = .held)
    (hh : (s.seg d).holder = none) (hx : (s.seg d).transfer = none) :
    exec (.closeEnd d sda) s = .next (afterRelease d (leaveInOrder d sda) s) := by
  show execCloseEnd d sda s = _
  rw [execCloseEnd, running_awake _ hr]
  exact if_pos ⟨hst, hh, hx⟩

/-- A close end on a segment with a transfer in flight cannot arrive. -/
theorem exec_closeEnd_transfer {d : Seg} {s : State} (sda : Line) (hr : s.inReset = false) (hx : (s.seg d).transfer ≠ none) :
    exec (.closeEnd d sda) s = .fault .notInProgress := by
  show execCloseEnd d sda s = _
  rw [execCloseEnd, running_awake _ hr]
  exact if_neg fun h => hx h.2.2

theorem exec_recoveryEnd_high {d : Seg} {s : State} (sda : Line) (hr : s.inReset = false) (hst : (s.seg d).state = .recovering) :
    exec (.recoveryEnd d .high sda) s = .next (leaveInOrder d sda s) := by
  show execRecoveryEnd d .high sda s = _
  rw [execRecoveryEnd, running_awake _ hr]
  exact if_pos hst

theorem exec_recoveryEnd_low {d : Seg} {s : State} (sda : Line) (hr : s.inReset = false) (hst : (s.seg d).state = .recovering) :
    exec (.recoveryEnd d .low sda) s = .next (leaveInFault d [segmentReport s d] s) := by
  show execRecoveryEnd d .low sda s = _
  rw [execRecoveryEnd, running_awake _ hr]
  exact if_pos hst

theorem exec_stallTimeout_recovering {d : Seg} {s : State} (hr : s.inReset = false) (hst : (s.seg d).state = .recovering) :
    exec (.stallTimeout d) s = .next (leaveInFault d [segmentReport s d] s) := by
  have htimed : stallTimed (s.seg d) = true := by simp [stallTimed, hst]
  show execStallTimeout d s = _
  rw [execStallTimeout, running_awake _ hr]
  simp only [htimed, hst, Bool.not_true, Bool.false_eq_true, if_false, if_true]

theorem exec_stallTimeout_held {d : Seg} {s : State} (hr : s.inReset = false) (hst : (s.seg d).state = .held)
    (hrun : (s.seg d).transfer.isSome ∨ (s.seg d).holder = none) : exec (.stallTimeout d) s = .next (stallHeld d s) := by
  have htimed : stallTimed (s.seg d) = true := by
    rcases hrun with h | h <;> simp [stallTimed, hst, h]
  show execStallTimeout d s = _
  rw [execStallTimeout, running_awake _ hr]
  simp only [htimed, hst, Bool.not_true, Bool.false_eq_true, if_false, reduceCtorEq]

theorem exec_openingBusClearEnd_high {d : Seg} {s : State} (sda : Line) (hr : s.inReset = false)
    (hx : (s.seg d).transfer = some .busClear) : exec (.openingBusClearEnd d .high sda) s = .next (openingClears d sda s) := by
  show execOpeningBusClearEnd d .high sda s = _
  rw [execOpeningBusClearEnd, running_awake _ hr]
  exact if_pos hx

theorem exec_openingBusClearEnd_low {d : Seg} {s : State} (sda : Line) (hr : s.inReset = false)
    (hx : (s.seg d).transfer = some .busClear) : exec (.openingBusClearEnd d .low sda) s = .next (openingStuck d s) := by
  show execOpeningBusClearEnd d .low sda s = _
  rw [execOpeningBusClearEnd, running_awake _ hr]
  exact if_pos hx

theorem openingClears_none {d : Seg} {s : State} (sda : Line) (h : (s.seg d).holder = none) :
    openingClears d sda s = leaveInOrder d sda s := by
  have hholder : holderAccess d s = none := by simp only [holderAccess, h]
  simp only [openingClears, hholder]

/-- Each of the events leaves the segment in order, where no address byte waits for it. -/
theorem exec_leaves {d : Seg} {sda : Line} {e : Instr} {s : State} (hr : s.inReset = false) (hh : (s.seg d).holder = none)
    (hres : (s.seg d).resume = none) (he : s.leavesBy d sda e) : exec e s = .next (leaveInOrder d sda s) := by
  rcases he with ⟨rfl, hst, hx⟩ | ⟨rfl, hst⟩ | ⟨rfl, _, hx⟩
  · rw [exec_closeEnd sda hr hst hh hx, afterRelease_none _ hres]
  · exact exec_recoveryEnd_high sda hr hst
  · rw [exec_openingBusClearEnd_high sda hr hx, openingClears_none sda hh]

/-! ## Waiters and requests in their order (O31, O32) -/

/-- A waiter that its segment's lease bars, or that waits for a segment that is not IDLE, stays (R113). -/
theorem answerWaiter_stays {d : Seg} {s : State} {w : Waiter} (sda : Line)
    (h : (s.seg d).state ≠ .idle ∨ barred (s.seg d) w.port = true) : answerWaiter d sda s w = s := by
  unfold answerWaiter
  rcases h with h | h <;> simp [h]

theorem foldl_answerWaiter_stays {d : Seg} {s : State} {ws : List Waiter} (sda : Line)
    (h : ∀ w ∈ ws, (s.seg d).state ≠ .idle ∨ barred (s.seg d) w.port = true) : ws.foldl (answerWaiter d sda) s = s := by
  induction ws with
  | nil => rfl
  | cons w ws ih =>
    rw [List.foldl_cons, answerWaiter_stays sda (h w (by simp))]
    exact ih fun x hx => h x (by simp [hx])

/-- A refusal at step 4 neither looks at a segment nor changes one. -/
theorem State.refusedAtFour_setSeg (s : State) (d : Seg) (g : Segment) (p : Port) (a : Access) :
    (s.setSeg d g).refusedAtFour p a = (s.refusedAtFour p a).setSeg d g := rfl

theorem State.refusedAtFour_seg (s : State) (d : Seg) (p : Port) (a : Access) : (s.refusedAtFour p a).seg d = s.seg d := rfl

/-- The segment that a grant leaves has the requests that it had, and a grant does not look at them. -/
theorem grant_setRequests (p : Port) (d : Seg) (sda : Line) (s : State) (rs : List Port) :
    grant p d sda (s.setSeg d { s.seg d with requests := rs }) =
      (grant p d sda s).setSeg d { (grant p d sda s).seg d with requests := rs } := by
  cases ha : (s.ctx p).access with
  | none =>
    have hnone : ∀ t : State, (t.ctx p).access = none → grant p d sda t = t := fun t ht => by simp only [grant, ht]
    rw [hnone s ha, hnone (s.setSeg d _) ha]
  | some a =>
    have ha' : ((s.setSeg d { s.seg d with requests := rs }).ctx p).access = some a := ha
    by_cases h4 : passesStepFour a.copy a.dir (loadCursor s.cursors a.copy)
    · rw [grant_passes sda ha h4, grant_passes sda ha' h4]
      simp [State.grantedTo]
    · rw [grant_refuses sda ha h4, grant_refuses sda ha' h4]
      rw [State.refusedAtFour_setSeg, State.refusedAtFour_seg]

theorem answerWaiter_setRequests (d : Seg) (sda : Line) (s : State) (w : Waiter) (rs : List Port) :
    answerWaiter d sda (s.setSeg d { s.seg d with requests := rs }) w =
      (answerWaiter d sda s w).setSeg d { (answerWaiter d sda s w).seg d with requests := rs } := by
  have hdrop : dropWaiter d w.port (s.setSeg d { s.seg d with requests := rs }) =
      (dropWaiter d w.port s).setSeg d { (dropWaiter d w.port s).seg d with requests := rs } := by simp [dropWaiter]
  have hbar : barred { s.seg d with requests := rs } w.port = barred (s.seg d) w.port := rfl
  unfold answerWaiter
  simp only [State.setSeg_seg, hbar, hdrop]
  split
  · exact grant_setRequests ..
  · rfl

theorem answerWaiters_setRequests (d : Seg) (sda : Line) (s : State) (rs : List Port) :
    answerWaiters d sda (s.setSeg d { s.seg d with requests := rs }) =
      (answerWaiters d sda s).setSeg d { (answerWaiters d sda s).seg d with requests := rs } := by
  have hfold : ∀ (ws : List Waiter) (t : State), ws.foldl (answerWaiter d sda) (t.setSeg d { t.seg d with requests := rs }) =
      (ws.foldl (answerWaiter d sda) t).setSeg d { (ws.foldl (answerWaiter d sda) t).seg d with requests := rs } := by
    intro ws
    induction ws with
    | nil => exact fun _ => rfl
    | cons w ws ih =>
      intro t
      rw [List.foldl_cons, answerWaiter_setRequests, List.foldl_cons, ih]
  have hw : ((s.setSeg d { s.seg d with requests := rs }).seg d).waiters = (s.seg d).waiters := by simp
  rw [answerWaiters, hw]
  exact hfold _ s

/-- The last of the requests is answered on the state that the earlier ones left. -/
theorem takeUpRequests_append (d : Seg) (sda : Line) (s : State) (earlier : List Port) (p : Port) :
    takeUpRequests d sda (s.setSeg d { s.seg d with requests := earlier ++ [p] }) =
      request p d sda (takeUpRequests d sda (s.setSeg d { s.seg d with requests := earlier })) := by
  simp [takeUpRequests, List.foldl_append]

/-- A waiting list is a wait on a RECOVERING segment, whatever level SDA has. -/
theorem request_recovering {p : Port} {d : Seg} (sda sda' : Line) {s : State} (h : (s.seg d).state = .recovering) :
    request p d sda s = request p d sda' s := by
  simp only [request, h]

theorem request_recovering_state {p : Port} {d : Seg} (sda : Line) {s : State} (h : (s.seg d).state = .recovering) :
    ((request p d sda s).seg d).state = .recovering := by
  have hwait : request p d sda s = waitOrBusy p d s := by simp only [request, h]
  rw [hwait, waitOrBusy]
  split
  · rw [refuse_segs]; exact h
  · simpa [setState_eq] using h

theorem takeUpRequests_recovering {d : Seg} (sda : Line) {s : State} (h : (s.seg d).state = .recovering) :
    ((takeUpRequests d sda s).seg d).state = .recovering := by
  have hfold : ∀ (ps : List Port) (t : State), (t.seg d).state = .recovering →
      ((ps.foldl (fun t p => request p d sda t) t).seg d).state = .recovering := by
    intro ps
    induction ps with
    | nil => exact fun _ ht => ht
    | cons p ps ih => exact fun t ht => ih _ (request_recovering_state sda ht)
  exact hfold _ _ (by simpa using h)

/-- A segment that a stall takes to RECOVERING (R94). -/
def Segment.stalled (g : Segment) : Segment :=
  { g with state := .recovering, holder := none, bus := .opened, transfer := none, openAfter := false }

theorem enterStalled_eq (d : Seg) (s : State) : enterStalled d s = takeUpRequests d .high (s.setSeg d (s.seg d).stalled) := rfl

theorem enterStalled_quiet {d : Seg} {s : State} (h : (s.seg d).requests = []) :
    enterStalled d s = s.setSeg d (s.seg d).stalled := by
  rw [enterStalled_eq, takeUpRequests_nil .high (by simpa [Segment.stalled] using h)]

/-- The last request that a segment kept is answered after the earlier ones, when the segment leaves in order. -/
theorem leaveInOrder_append {d : Seg} {sda : Line} {s : State} {earlier : List Port} {p : Port}
    (hreq : (s.seg d).requests = earlier ++ [p]) (hon : (s.seg d).pendsOff = false) :
    leaveInOrder d sda s = request p d sda (leaveInOrder d sda (s.setSeg d { s.seg d with requests := earlier })) := by
  have hon' : ((s.setSeg d { s.seg d with requests := earlier }).seg d).pendsOff = false := by simpa [Segment.pendsOff] using hon
  have hset : ∀ rs, ((s.setSeg d { s.seg d with requests := rs }).setSeg d
      ((s.setSeg d { s.seg d with requests := rs }).seg d).idled) =
      (s.setSeg d (s.seg d).idled).setSeg d { (s.setSeg d (s.seg d).idled).seg d with requests := rs } := by
    intro rs
    simp [Segment.idled]
  have hself : s = s.setSeg d { s.seg d with requests := earlier ++ [p] } := by
    rw [← hreq]
    exact (State.setSeg_seg_self s d).symm
  have hfirst : leaveInOrder d sda s = takeUpRequests d sda (answerWaiters d sda
      ((s.setSeg d (s.seg d).idled).setSeg d { (s.setSeg d (s.seg d).idled).seg d with requests := earlier ++ [p] })) := by
    rw [leaveInOrder_on sda hon, ← hset, ← hself]
  rw [hfirst, leaveInOrder_on sda hon', hset, answerWaiters_setRequests, answerWaiters_setRequests, takeUpRequests_append]

/-- The same at a stall, where the requests become requests on a RECOVERING segment (R92). -/
theorem enterStalled_append {d : Seg} {s : State} {earlier : List Port} {p : Port}
    (hreq : (s.seg d).requests = earlier ++ [p]) (sda : Line) :
    enterStalled d s = request p d sda (enterStalled d (s.setSeg d { s.seg d with requests := earlier })) := by
  have hset : ∀ rs, ((s.setSeg d { s.seg d with requests := rs }).setSeg d
      ((s.setSeg d { s.seg d with requests := rs }).seg d).stalled) =
      (s.setSeg d (s.seg d).stalled).setSeg d { (s.setSeg d (s.seg d).stalled).seg d with requests := rs } := by
    intro rs
    simp [Segment.stalled]
  have hself : s = s.setSeg d { s.seg d with requests := earlier ++ [p] } := by
    rw [← hreq]
    exact (State.setSeg_seg_self s d).symm
  have hrec : ((enterStalled d (s.setSeg d { s.seg d with requests := earlier })).seg d).state = .recovering := by
    rw [enterStalled_eq]
    exact takeUpRequests_recovering .high (by simp [Segment.stalled])
  rw [request_recovering sda .high hrec, enterStalled_eq, enterStalled_eq, hset earlier, ← takeUpRequests_append, ← hset, ← hself]

/-- What an address byte that waits for the release comes to, at the end and at the stall of the close (R64). -/
theorem afterRelease_resolves {d : Seg} {s : State} {r : Resume} (leave : State → State) (h : (s.seg d).resume = some r) :
    (leave (s.setSeg d { s.seg d with resume := none })).Resolves r.port r.outcome (afterRelease d leave s) := by
  rw [afterRelease_some leave h]
  exact addressOutcome_resolves ..

theorem stallHeld_close {d : Seg} {s : State} (hx : (s.seg d).transfer ≠ some .busClear) (hh : (s.seg d).holder = none) :
    stallHeld d s = afterRelease d (enterStalled d) s := by
  rw [stallHeld, if_neg hx]
  simp only [hh]

theorem exec_openingBusClearEnd_none {d : Seg} {s : State} (final sda : Line) (hr : s.inReset = false)
    (hx : (s.seg d).transfer ≠ some .busClear) : exec (.openingBusClearEnd d final sda) s = .fault .notInProgress := by
  show execOpeningBusClearEnd d final sda s = _
  rw [execOpeningBusClearEnd, running_awake _ hr]
  exact if_neg hx

/-- An event that takes the requests of a segment up does so one by one: the last is answered on the state that the others leave. -/
theorem exec_append {d : Seg} {s t : State} {e : Instr} {earlier : List Port} {p : Port} {sda : Line} (hr : s.inReset = false)
    (hst : (s.seg d).state = .held) (hh : (s.seg d).holder = none) (hres : (s.seg d).resume = none)
    (hreq : (s.seg d).requests = earlier ++ [p])
    (he : ((e = .closeEnd d sda ∨ e = .openingBusClearEnd d .high sda) ∧ ∀ c ∈ (s.seg d).pendingConfig, c.enable = true) ∨
      (e = .stallTimeout d ∧ (s.seg d).transfer ≠ some .busClear))
    (hexec : exec e (s.setSeg d { s.seg d with requests := earlier }) = .next t) :
    ∃ u, exec e s = .next u ∧ u = request p d sda t := by
  have hset : ((s.setSeg d { s.seg d with requests := earlier }).seg d) = { s.seg d with requests := earlier } := State.setSeg_seg ..
  have hr' : (s.setSeg d { s.seg d with requests := earlier }).inReset = false := hr
  have hst' : ((s.setSeg d { s.seg d with requests := earlier }).seg d).state = .held := by rw [hset]; exact hst
  have hh' : ((s.setSeg d { s.seg d with requests := earlier }).seg d).holder = none := by rw [hset]; exact hh
  have hres' : ((s.setSeg d { s.seg d with requests := earlier }).seg d).resume = none := by rw [hset]; exact hres
  have hx' : ((s.setSeg d { s.seg d with requests := earlier }).seg d).transfer = (s.seg d).transfer := by rw [hset]
  rcases he with ⟨rfl | rfl, hon⟩ | ⟨rfl, hx⟩
  · by_cases hx : (s.seg d).transfer = none
    · rw [exec_closeEnd sda hr' hst' hh' (hx'.trans hx), afterRelease_none _ hres'] at hexec
      obtain rfl := Host.Outcome.next.inj hexec
      exact ⟨_, (exec_closeEnd sda hr hst hh hx).trans (congrArg _ (afterRelease_none _ hres)),
        leaveInOrder_append hreq (Segment.pendsOff_eq_false hon)⟩
    · rw [exec_closeEnd_transfer sda hr' (by rw [hx']; exact hx)] at hexec
      exact nomatch hexec
  · by_cases hx : (s.seg d).transfer = some .busClear
    · rw [exec_openingBusClearEnd_high sda hr' (hx'.trans hx), openingClears_none sda hh'] at hexec
      obtain rfl := Host.Outcome.next.inj hexec
      exact ⟨_, (exec_openingBusClearEnd_high sda hr hx).trans (congrArg _ (openingClears_none sda hh)),
        leaveInOrder_append hreq (Segment.pendsOff_eq_false hon)⟩
    · rw [exec_openingBusClearEnd_none .high sda hr' (by rw [hx']; exact hx)] at hexec
      exact nomatch hexec
  · rw [exec_stallTimeout_held hr' hst' (.inr hh'), stallHeld_close (by rw [hx']; exact hx) hh', afterRelease_none _ hres'] at hexec
    obtain rfl := Host.Outcome.next.inj hexec
    refine ⟨_, (exec_stallTimeout_held hr hst (.inr hh)).trans (congrArg _ ((stallHeld_close hx hh).trans (afterRelease_none _ hres))), ?_⟩
    exact enterStalled_append hreq sda

/-- Settles O31: alone, under enable off, request by request, and with the address byte that waits. -/
theorem closeAndRecoveryEndInOrder : Obligations.CloseAndRecoveryEndInOrder := by
  refine ⟨fun d sda s hr hw hreq hres => ⟨fun hst hh hx => ?_, fun hst => ?_⟩, fun d sda s e c ws hr hh hres hc hoff hask he => ?_,
    fun d s t e earlier p a sda hr hst hh hres hreq he hexec ha => ?_, fun d sda s t e r hr hst hh hx hres he hexec => ?_⟩
  · rw [exec_closeEnd sda hr hst hh hx, afterRelease_none _ hres, leaveInOrder_quiet sda hw hreq]
    rfl
  · rw [exec_recoveryEnd_high sda hr hst, leaveInOrder_quiet sda hw hreq]
    rfl
  · have hpends : (s.seg d).pendsOff = true := by rw [Segment.pendsOff_iff, hc]; exact ⟨rfl, hoff⟩
    refine ⟨_, exec_leaves hr hh hres he, ?_⟩
    rw [leaveInOrder_off sda hpends]
    have htakes := refuseDown_setSeg (d := d) (g := (s.seg d).disabled) hask []
    simpa [Segment.disabled, Segment.idled, Segment.asking, Segment.waiting, hc, hh, hres] using htakes
  · obtain ⟨u, hu, rfl⟩ := exec_append hr hst hh hres hreq he hexec
    exact ⟨_, hu, request_answers sda ha⟩
  · have hset : ((s.setSeg d { s.seg d with resume := none }).seg d) = { s.seg d with resume := none } := State.setSeg_seg ..
    rcases he with rfl | rfl
    · by_cases hnone : (s.seg d).transfer = none
      · rw [exec_closeEnd (s := s.setSeg d _) sda hr (by rw [hset]; exact hst) (by rw [hset]; exact hh) (by rw [hset]; exact hnone),
          afterRelease_none _ (by rw [hset])] at hexec
        obtain rfl := Host.Outcome.next.inj hexec
        exact ⟨_, exec_closeEnd sda hr hst hh hnone, afterRelease_resolves _ hres⟩
      · rw [exec_closeEnd_transfer (s := s.setSeg d _) sda hr (by rw [hset]; exact hnone)] at hexec
        exact nomatch hexec
    · rw [exec_stallTimeout_held (s := s.setSeg d _) hr (by rw [hset]; exact hst) (.inr (by rw [hset]; exact hh)),
        stallHeld_close (by rw [hset]; exact hx) (by rw [hset]; exact hh), afterRelease_none _ (by rw [hset])] at hexec
      obtain rfl := Host.Outcome.next.inj hexec
      refine ⟨_, exec_stallTimeout_held hr hst (.inr hh), ?_⟩
      rw [stallHeld_close hx hh]
      exact afterRelease_resolves _ hres

end Sys2Proof.Machine
end

section
/-! PROOFS. The first waiter's grant, failed recoveries, stalls, and the end of bus-clear inside OPENING (R60, R63, R69, R92, R94, R97, R99, R101, R113). -/

namespace Sys2Proof.Machine

/-! ## The grant of the first waiter (O32) -/

theorem barred_eq_false {g : Segment} {p : Port} (h : ∀ l ∈ g.lease, l.holder = p) : barred g p = false := by
  rw [← Bool.not_eq_true, barred_iff]
  rintro ⟨l, hl, hne⟩
  exact hne (h l hl)

/-- A waiter that no lease bars is granted the IDLE segment (R113). -/
theorem answerWaiter_grants {d : Seg} {s : State} {w : Waiter} (sda : Line) (hst : (s.seg d).state = .idle)
    (hl : ∀ l ∈ (s.seg d).lease, l.holder = w.port) : answerWaiter d sda s w = grant w.port d sda (dropWaiter d w.port s) := by
  unfold answerWaiter
  simp [hst, barred_eq_false hl]

theorem filter_waiter {before after : List Waiter} {w : Waiter} (h : ∀ x ∈ before ++ after, x.port ≠ w.port) :
    (before ++ w :: after).filter (fun x => x.port ≠ w.port) = before ++ after := by
  have hkeep : ∀ l : List Waiter, (∀ x ∈ l, x.port ≠ w.port) → l.filter (fun x => x.port ≠ w.port) = l := fun l hl =>
    List.filter_eq_self.mpr fun x hx => by simpa using hl x hx
  rw [List.filter_append, List.filter_cons_of_neg (by simp), hkeep before fun x hx => h x (by simp [hx]),
    hkeep after fun x hx => h x (by simp [hx])]

/-- The waiters before the first that no lease bars stay, that one is granted, and the rest are examined after it (R113). -/
theorem answerWaiters_first {d : Seg} {s : State} {before after : List Waiter} {w : Waiter} (sda : Line)
    (hst : (s.seg d).state = .idle) (hw : (s.seg d).waiters = before ++ w :: after)
    (hport : ∀ x ∈ before ++ after, x.port ≠ w.port) (hbefore : ∀ x ∈ before, ∃ l ∈ (s.seg d).lease, l.holder ≠ x.port)
    (hl : ∀ l ∈ (s.seg d).lease, l.holder = w.port) : answerWaiters d sda s =
      after.foldl (answerWaiter d sda) (grant w.port d sda (s.setSeg d { s.seg d with waiters := before ++ after })) := by
  have hdrop : dropWaiter d w.port s = s.setSeg d { s.seg d with waiters := before ++ after } := by
    rw [dropWaiter, hw, filter_waiter hport]
  rw [answerWaiters, hw, List.foldl_append,
    foldl_answerWaiter_stays sda fun x hx => .inr ((barred_iff _ _).mpr (hbefore x hx)), List.foldl_cons,
    answerWaiter_grants sda hst hl, hdrop]

/-- Where a segment that is left keeps no request, its waiters are all that is answered. -/
theorem leaveInOrder_waiters {d : Seg} {s : State} (sda : Line) (hon : (s.seg d).pendsOff = false) (hreq : (s.seg d).requests = []) :
    leaveInOrder d sda s = answerWaiters d sda (s.setSeg d (s.seg d).idled) := by
  have hself : s.setSeg d (s.seg d).idled =
      (s.setSeg d (s.seg d).idled).setSeg d { (s.setSeg d (s.seg d).idled).seg d with requests := [] } := by
    simp [Segment.idled, hreq]
  have hnone : ((answerWaiters d sda (s.setSeg d (s.seg d).idled)).seg d).requests = [] := by
    rw [hself, answerWaiters_setRequests]
    simp
  rw [leaveInOrder_on sda hon, takeUpRequests_nil sda hnone]

/-- Settles O32: the waiters before the first that no lease bars stay; it is granted, or refused with the rest examined as without it. -/
theorem closeEndGrantsTheFirstWaiter : Obligations.CloseEndGrantsTheFirstWaiter := by
  intro d sda s e hr hh hreq hres hon he left
  have hpends := Segment.pendsOff_eq_false hon
  have hleft : ∀ ws, (s.setSeg d (s.seg d).idled).setSeg d { (s.setSeg d (s.seg d).idled).seg d with waiters := ws } = left ws := by
    intro ws
    simp [left, Segment.idled, hh]
  have hidle : ((s.setSeg d (s.seg d).idled).seg d).state = .idle := by simp [Segment.idled]
  have hlease : ((s.setSeg d (s.seg d).idled).seg d).lease = (s.seg d).lease := by simp [Segment.idled]
  have hwait : ((s.setSeg d (s.seg d).idled).seg d).waiters = (s.seg d).waiters := by simp [Segment.idled]
  refine ⟨fun hbar => ?_, fun before after w a hw hport hbefore hl ha => ?_⟩
  · rw [exec_leaves hr hh hres he, leaveInOrder_waiters sda hpends hreq, answerWaiters, hwait,
      foldl_answerWaiter_stays sda fun x hx => .inr ((barred_iff _ _).mpr (by rw [hlease]; exact hbar x hx)), ← hleft]
    simp [Segment.idled]
  · have hanswers : leaveInOrder d sda s = after.foldl (answerWaiter d sda) (grant w.port d sda (left (before ++ after))) := by
      rw [leaveInOrder_waiters sda hpends hreq, answerWaiters_first sda hidle (hwait.trans hw) hport
        (by rw [hlease]; exact hbefore) (by rw [hlease]; exact hl), hleft]
    have ha' : ((left (before ++ after)).ctx w.port).access = some a := ha
    refine ⟨fun h4 => ?_, fun h4 => ?_⟩
    · rw [exec_leaves hr hh hres he, hanswers, grant_passes sda ha' h4, foldl_answerWaiter_stays sda]
      intro x _
      exact .inl (by simp [State.grantedTo])
    · have hseg : (((s.setSeg d { s.seg d with waiters := before ++ after }).refusedAtFour w.port a).seg d) =
          { s.seg d with waiters := before ++ after } := State.setSeg_seg ..
      have hidled : ((s.setSeg d { s.seg d with waiters := before ++ after }).refusedAtFour w.port a).setSeg d
          { s.seg d with waiters := before ++ after }.idled = (left (before ++ after)).refusedAtFour w.port a := by
        rw [← State.refusedAtFour_setSeg, ← hleft]
        simp [Segment.idled]
      have hafter : (((left (before ++ after)).refusedAtFour w.port a).seg d).waiters = before ++ after := by
        rw [State.refusedAtFour_seg, ← hleft]
        simp
      have hstays : ∀ x ∈ before, barred (((left (before ++ after)).refusedAtFour w.port a).seg d) x.port = true := fun x hx => by
        rw [barred_iff, State.refusedAtFour_seg, ← hleft, State.setSeg_seg]
        exact hlease.symm ▸ hbefore x hx
      rw [exec_leaves hr hh hres he, hanswers, grant_refuses sda ha' h4,
        exec_leaves (d := d) (sda := sda) (e := e) (s := (s.setSeg d { s.seg d with waiters := before ++ after }).refusedAtFour w.port a)
          hr (by rw [hseg]; exact hh) (by rw [hseg]; exact hres) (by unfold State.leavesBy; rw [hseg]; exact he),
        leaveInOrder_waiters sda (by rw [hseg]; exact hpends) (by rw [hseg]; exact hreq), hseg, hidled, answerWaiters, hafter,
        List.foldl_append, foldl_answerWaiter_stays sda fun x hx => .inr (hstays x hx)]

/-! ## Failed recoveries (O33) -/

theorem Segment.faulted_resume (g : Segment) : g.faulted.resume = g.resume := rfl

/-- The records handed together change no front end and no context. -/
theorem LogTakes.fe_ctx {rs : List Report} {u t : State} (h : LogTakes rs u t) (p : Port) : t.fe p = u.fe p ∧ t.ctx p = u.ctx p := by
  obtain ⟨o, n, _, _, rfl⟩ := h
  exact ⟨rfl, rfl⟩

/-- Every port that a segment refuses is in REFUSING with both lines released (R97, R99). -/
theorem refuseDown_refuses {ps : List Port} (extra : List Report) (s : State) {p : Port} (hp : p ∈ ps) :
    ((refuseDown ps extra s).ctx p).state = .refusing ∧ ((refuseDown ps extra s).fe p).hold = false ∧
      ((refuseDown ps extra s).fe p).drive = .released := by
  obtain ⟨hfe, hctx⟩ := (handTogether_takes (downRecords ps s ++ extra) (ps.foldl (fun t p => refuseSilently p t) s)).fe_ctx p
  rw [refuseDown, hfe, hctx]
  exact refuse_fold ps s p (.inr hp)

theorem refuseDown_seg (ps : List Port) (extra : List Report) (s : State) (d : Seg) : (refuseDown ps extra s).seg d = s.seg d := by
  have hfold : ∀ (ps : List Port) (t : State), (ps.foldl (fun t p => refuseSilently p t) t).seg d = t.seg d := by
    intro ps
    induction ps with
    | nil => exact fun _ => rfl
    | cons p ps ih =>
      intro t
      rw [List.foldl_cons, ih]
      rcases claimDenied_spec p t with e | ⟨_, _, _, e⟩ <;> simp [refuseSilently, e, answer_eq, setState_eq, countEntry]
  rw [refuseDown, (handTogether_takes ..).seg, hfold]

theorem leaveInFault_quiet {d : Seg} {s : State} (r : Report) (hw : (s.seg d).waiters = []) (hreq : (s.seg d).requests = []) :
    leaveInFault d [r] s = (s.setLog (s.log.take r)).setSeg d (s.seg d).faulted := by
  rw [leaveInFault_eq, Segment.asking_eq_nil hw hreq, refuseDown_nil]
  rfl

/-- The whole next state of a failed recovery, where the accesses of the refused ports are known. -/
theorem leaveInFault_takes {d : Seg} {s : State} {ws : List (Port × Access)} (stuck : List Report) (h : s.askingAre d ws) :
    LogTakes (s.downReports ws ++ stuck) ((s.refusedDown ws).setSeg d (s.seg d).faulted) (leaveInFault d stuck s) := by
  rw [leaveInFault_eq]
  exact refuseDown_setSeg h stuck

/-- Settles O33: the recovery fails by its final sample and by a stall alike. -/
theorem failedRecoveryFaults : Obligations.FailedRecoveryFaults := by
  intro d sda s hr hst
  rw [exec_recoveryEnd_low sda hr hst, exec_stallTimeout_recovering hr hst]
  refine ⟨fun hw hreq => ?_, ⟨_, rfl, rfl, ?_, fun p hp => ?_⟩, fun ws hask => ⟨_, rfl, rfl, leaveInFault_takes _ hask⟩⟩
  · rw [leaveInFault_quiet _ hw hreq]
    exact ⟨rfl, rfl⟩
  · rw [leaveInFault_eq, refuseDown_seg, State.setSeg_seg]
    rfl
  · rw [leaveInFault_eq]
    exact refuseDown_refuses _ _ hp

/-! ## Stalls (O34, O35) -/

theorem stallHeld_access {d : Seg} {p : Port} {a : Access} {s : State} (hx : (s.seg d).transfer ≠ some .busClear)
    (hp : (s.seg d).holder = some p) (ha : (s.ctx p).access = some a) : stallHeld d s = stallAccess p a d s := by
  rw [stallHeld, if_neg hx]
  simp only [hp, ha]

/-- A stall before the upstream answer: STALL, the denied claim, an absent cursor handed back, and the segment RECOVERING (R60, R94). -/
theorem stallAccess_eq {d : Seg} {p : Port} {a : Access} {s : State} (ha : (s.ctx p).access = some a) (hreq : (s.seg d).requests = []) :
    stallAccess p a d s = stallAnswer p (((((s.setCursors (handed s a none)).setLog
      (logged s p a .stall (if a.copy.width = .zero then none else a.cursor) a.count)).setCounters (denied s a)).setSeg d
        (s.seg d).stalled).setCtx p { s.ctx p with access := some (a.ended none) }) := by
  have ha' : ((penalize p .stall (recordIndex a) a.count s).ctx p).access = some a := by rw [penalize_ctx]; exact ha
  have hquiet : ((giveUp p none (penalize p .stall (recordIndex a) a.count s)).seg d).requests = [] := by
    rw [giveUp_eq ha', penalize_eq ha]
    exact hreq
  rw [stallAccess, enterStalled_quiet hquiet, giveUp_eq ha', penalize_eq ha, recordIndex_eq]
  simp

/-- Settles O34: the answer upstream by the phase of the transfer. -/
theorem stallOfAnAccess : Obligations.StallOfAnAccess := by
  intro d x p a s h hx hst hreq base ctx
  obtain ⟨hr, htransfer, hp, ha, hd⟩ := h
  have hx' : (s.seg d).transfer ≠ some .busClear := by rw [htransfer]; simpa using hx
  have hctx : ∀ c, (State.setCtx base p c).ctx p = c := fun c => State.setCtx_ctx ..
  have hexec : exec (.stallTimeout d) s = .next (stallAnswer p (base.setCtx p { s.ctx p with access := some (a.ended none) })) := by
    rw [exec_stallTimeout_held hr hst (.inl (by rw [htransfer]; rfl)), stallHeld_access hx' hp ha, stallAccess_eq ha hreq]
    rfl
  rw [hexec]
  refine ⟨fun hphase => ?_, fun hphase => ?_, fun hphase => ?_⟩
  · have hanswer : ∀ t : State, ((t.ctx p).state = .opening ∨ (t.ctx p).state = .writeIndex ∨ (t.ctx p).state = .writeData) →
        stallAnswer p t = setState p .refusing (answer p .nak t) := by
      intro t ht
      unfold stallAnswer
      rcases ht with ht | ht | ht <;> rw [ht]
    rw [hanswer _ (by rw [hctx]; exact hphase)]
    simp [answer_eq, setState_eq, ctx, base]
  · have hanswer : ∀ t : State, (t.ctx p).state = .readData → stallAnswer p t = setState p .filler (deliver p 0xFF#8 t) := by
      intro t ht
      simp only [stallAnswer, ht]
    rw [hanswer _ (by rw [hctx]; exact hphase)]
    simp [deliver_eq, setState_eq, ctx, base]
  · have hanswer : ∀ t : State, (t.ctx p).state = .readEnd → stallAnswer p t = setState p .refusing t := by
      intro t ht
      simp only [stallAnswer, ht]
    rw [hanswer _ (by rw [hctx]; exact hphase)]
    simp [setState_eq, ctx, base]

/-- Settles O35: a close, and the retained interval. -/
theorem stallWithoutAnAccess : Obligations.StallWithoutAnAccess := by
  intro d s hr hst hx hreq t
  refine ⟨fun hh hres => ?_, fun p hp hnak ha => ?_⟩
  · rw [exec_stallTimeout_held hr hst (.inr hh), stallHeld_close hx hh, afterRelease_none _ hres, enterStalled_quiet hreq]
    rfl
  · rw [exec_stallTimeout_held hr hst (.inl (by rw [hnak]; rfl)), stallHeld, if_neg hx]
    simp only [hp, ha, enterStalled_quiet hreq, toIdle_eq]
    rfl

/-! ## Bus-clear inside OPENING (O36) -/

theorem stallHeld_busClear {d : Seg} {s : State} (hx : (s.seg d).transfer = some .busClear) : stallHeld d s = openingStuck d s := by
  rw [stallHeld, if_pos hx]

/-- A segment that leaves HELD or RECOVERING for `st` and the lease `l`, unless its configuration turns it off, with empty lists. -/
def Segment.leftAs (g : Segment) (st : SegState) (l : Option Lease) : Segment :=
  { g.idled with
    state := if g.turnsOff then .disabled else st, lease := if g.turnsOff then none else l, waiters := [], requests := [] }

theorem Segment.faulted_eq (g : Segment) : g.faulted = g.leftAs .fault none := by
  simp only [Segment.faulted, Segment.leftAs, ite_self]

theorem leaveInOrder_leftAs {d : Seg} {s : State} (sda : Line) (hw : (s.seg d).waiters = []) (hr : (s.seg d).requests = []) :
    leaveInOrder d sda s = s.setSeg d ((s.seg d).leftAs .idle (s.seg d).lease) := by
  rw [leaveInOrder_quiet sda hw hr]
  simp only [Segment.leftAs, Segment.idled, hw, hr]

/-- A STUCK record is made whatever the entry's quiet flag says (R11). -/
theorem logged_stuck (s : State) (p : Port) (a : Access) (i : Option Word16) (o : Nat) :
    logged s p a .stuck i o = s.log.take (accessReport s p a .stuck i o) := by
  simp [logged, Kind.quietable, accessReport]

/-- The holder of a bus-clear inside OPENING that fails is no port that its segment refuses. -/
theorem askingAre_setCtx {s : State} {d : Seg} {p : Port} {ws : List (Port × Access)} (c : Context) (h : s.askingAre d ws)
    (hne : ∀ x ∈ ws, x.1 ≠ p) : (s.setCtx p c).askingAre d ws := by
  obtain ⟨hports, haccess⟩ := h
  exact ⟨hports, fun x hx => by rw [State.setCtx_ctx_ne _ _ _ _ (hne x hx)]; exact haccess x hx⟩

/-- The holder's refusal where bus-clear inside OPENING fails, less its record (R101). -/
theorem openingStuck_holder {d : Seg} {p : Port} {a : Access} {s : State} (hp : (s.seg d).holder = some p)
    (ha : (s.ctx p).access = some a) : openingStuck d s = leaveInFault d [accessReport s p a .stuck (recordIndex a) 0]
      ((((s.setCursors (handed s a none)).setCounters (denied s a)).setFe p ((s.fe p).answering .nak)).setCtx p
        ⟨.refusing, some (a.ended none), (s.ctx p).retained⟩) := by
  have ha' : ((refuseSilently p s).ctx p).access = some a := by
    rw [refuseSilently_eq ha]
    simpa using ha
  simp only [openingStuck, hp, openingFails, ha]
  rw [giveUp_eq ha', refuseSilently_eq ha]
  simp

/-- Where nothing else asks for the segment, STUCK is the one record (R99). -/
theorem openingStuck_quiet {d : Seg} {p : Port} {a : Access} {s : State} (hp : (s.seg d).holder = some p)
    (ha : (s.ctx p).access = some a) (hw : (s.seg d).waiters = []) (hreq : (s.seg d).requests = []) : openingStuck d s =
      (((((s.setCursors (handed s a none)).setCounters (denied s a)).setFe p ((s.fe p).answering .nak)).setCtx p
        ⟨.refusing, some (a.ended none), (s.ctx p).retained⟩).setLog
          (logged s p a .stuck (if a.copy.width = .zero then none else a.cursor) 0)).setSeg d ((s.seg d).leftAs .fault none) := by
  rw [openingStuck_holder hp ha, leaveInFault_eq, Segment.faulted_eq, logged_stuck, recordIndex_eq]
  simp only [State.setCtx_seg, State.setFe_seg, State.setCounters_seg, State.setCursors_seg, Segment.asking_eq_nil hw hreq,
    refuseDown_nil]
  rfl

/-- The records of the refused ports are handed to the log together with STUCK (R99, R128). -/
theorem openingStuck_takes {d : Seg} {p : Port} {a : Access} {s : State} {ws : List (Port × Access)}
    (hp : (s.seg d).holder = some p) (ha : (s.ctx p).access = some a) (hask : s.askingAre d ws) (hne : ∀ x ∈ ws, x.1 ≠ p) :
    LogTakes (s.downReports ws ++ [accessReport s p a .stuck (if a.copy.width = .zero then none else a.cursor) 0])
      ((State.refusedDown ((((s.setCursors (handed s a none)).setCounters (denied s a)).setFe p ((s.fe p).answering .nak)).setCtx p
        ⟨.refusing, some (a.ended none), (s.ctx p).retained⟩) ws).setSeg d ((s.seg d).leftAs .fault none)) (openingStuck d s) := by
  rw [openingStuck_holder hp ha, recordIndex_eq, ← Segment.faulted_eq]
  exact leaveInFault_takes _ (askingAre_setCtx
    (s := ((s.setCursors (handed s a none)).setCounters (denied s a)).setFe p ((s.fe p).answering .nak)) _ hask hne)

theorem openingStuck_none {d : Seg} {s : State} (hp : (s.seg d).holder = none) :
    openingStuck d s = leaveInFault d [segmentReport s d] s := by
  simp only [openingStuck, hp]

/-- Settles O36: with a holder and without one, by the final sample of SDA or a stall. -/
theorem openingBusClearEnds : Obligations.OpeningBusClearEnds := by
  intro d sda s hr hst hx
  have hlow := exec_openingBusClearEnd_low sda hr hx
  have hstall := (exec_stallTimeout_held hr hst (.inl (by rw [hx]; rfl))).trans (congrArg _ (stallHeld_busClear hx))
  refine ⟨fun p a hp ha hd => ⟨?_, ?_⟩, fun hp => ⟨fun hw hreq => ⟨?_, ?_⟩, fun ws hask => ⟨_, hlow, hstall, ?_⟩⟩⟩
  · have hholder : holderAccess d s = some (p, a) := holderAccess_eq_some.mpr ⟨hp, ha⟩
    rw [exec_openingBusClearEnd_high sda hr hx]
    simp only [openingClears, hholder]
    rfl
  · refine ⟨fun hw hreq => ?_, fun ws hask hne => ⟨_, hlow, hstall, openingStuck_takes hp ha hask hne⟩⟩
    rw [hlow, hstall, openingStuck_quiet hp ha hw hreq]
    exact ⟨rfl, rfl⟩
  · rw [exec_openingBusClearEnd_high sda hr hx, openingClears_none sda hp, leaveInOrder_leftAs sda hw hreq]
    rfl
  · rw [hlow, openingStuck_none hp, leaveInFault_quiet _ hw hreq, Segment.faulted_eq]
    rfl
  · have htakes := leaveInFault_takes [segmentReport s d] hask
    rw [Segment.faulted_eq] at htakes
    rw [openingStuck_none hp]
    exact htakes

end Sys2Proof.Machine
end

section
/-! PROOFS. Timers and commits (R12, R20, R66, R71, R72, R112, R117, R174, R180). -/

namespace Sys2Proof.Machine

/-! ## Timers (O37) -/

/-- A wait that has reached its hold limit is refused SEGMENT_BUSY (R112). -/
theorem endWait_expired {p : Port} {a : Access} {s : State} (ha : (s.ctx p).access = some a)
    (h : ∃ w ∈ (s.seg a.copy.segment).waiters, w.port = p ∧ w.since + w.limit ≤ s.now) : endWait p s =
      ((((s.setLog (logged s p a .segmentBusy none 0)).setCounters (denied s a)).setFe p ((s.fe p).answering .nak)).setCtx p
        { s.ctx p with state := .refusing }).setSeg a.copy.segment { s.seg a.copy.segment with
          waiters := (s.seg a.copy.segment).waiters.filter (fun w => w.port ≠ p) } := by
  have hexp : waitExpired p a.copy.segment s = true := by simpa [waitExpired, Waiter.expired] using h
  have ha' : ((dropWaiter a.copy.segment p s).ctx p).access = some a := ha
  simp only [endWait, ha, hexp, if_true]
  rw [refuse_eq ha']
  simp [State.refusedFor, dropWaiter, ha]

/-- A wait that has not reached its hold limit goes on (R112). -/
theorem endWait_early {p : Port} {a : Access} {s : State} (ha : (s.ctx p).access = some a)
    (h : ∀ w ∈ (s.seg a.copy.segment).waiters, w.port = p → s.now < w.since + w.limit) : endWait p s = s := by
  have hexp : waitExpired p a.copy.segment s = false := by simpa [waitExpired, Waiter.expired] using h
  simp only [endWait, ha, hexp, Bool.false_eq_true, if_false]

theorem exec_holdLimitExpiry_waiting {p : Port} {s : State} (hr : s.inReset = false) (hst : (s.ctx p).state = .waiting) :
    exec (.holdLimitExpiry p) s = .next (endWait p s) := by
  show execHoldLimitExpiry p s = _
  rw [execHoldLimitExpiry, running_awake _ hr]
  exact if_pos hst

theorem exec_leaseExpiry_some {d : Seg} {s : State} {l : Lease} (sda : Line) (hr : s.inReset = false) (hl : (s.seg d).lease = some l) :
    exec (.leaseExpiry d sda) s = if l.expiry ≤ s.now then .next (endLease d sda s) else .next s := by
  show execLeaseExpiry d sda s = _
  rw [execLeaseExpiry, running_awake _ hr]
  simp [hl, Lease.expired]

/-- The end of a lease on a segment that it leaves to no waiter (R117). -/
theorem endLease_quiet {d : Seg} {s : State} (sda : Line) (h : (s.seg d).state ≠ .idle ∨ (s.seg d).waiters = []) :
    endLease d sda s = s.setSeg d { s.seg d with lease := none } := by
  unfold endLease
  dsimp only
  split
  case isTrue hidle =>
    exact answerWaiters_nil sda (by simpa using h.resolve_left (not_not.mpr hidle))
  case isFalse => rfl

/-- The end of a lease that barred the one waiter of an IDLE segment (R117). -/
theorem endLease_waiter {d : Seg} {s : State} {w : Waiter} (sda : Line) (hst : (s.seg d).state = .idle)
    (hw : (s.seg d).waiters = [w]) :
    endLease d sda s = grant w.port d sda (s.setSeg d { s.seg d with lease := none, waiters := [] }) := by
  have hfirst := answerWaiters_first (s := s.setSeg d { s.seg d with lease := none }) (d := d) (before := []) (after := []) (w := w)
    sda (by simpa using hst) (by simpa using hw) (by simp) (by simp) (by simp)
  unfold endLease
  rw [if_pos hst, hfirst]
  simp

/-- A lease's end answers the one waiter that it barred by step 4 (R113, R117). -/
theorem endLease_grants {d : Seg} {s : State} {w : Waiter} {a : Access} (sda : Line) (hst : (s.seg d).state = .idle)
    (hw : (s.seg d).waiters = [w]) (ha : (s.ctx w.port).access = some a) :
    (passesStepFour a.copy a.dir (loadCursor s.cursors a.copy) → endLease d sda s =
      (s.setSeg d { s.seg d with lease := none, waiters := [] }).grantedTo w.port d sda a) ∧
    (¬ passesStepFour a.copy a.dir (loadCursor s.cursors a.copy) → endLease d sda s =
      (s.setSeg d { s.seg d with lease := none, waiters := [] }).refusedAtFour w.port a) := by
  rw [endLease_waiter sda hst hw]
  exact ⟨grant_passes (s := s.setSeg d _) sda ha, grant_refuses (s := s.setSeg d _) sda ha⟩

/-- The ownership idle timer of an OWNED unit (R174). -/
theorem exec_ownershipIdleTimeout_owned {p : Port} {since : Nat} {s : State} (hr : s.inReset = false)
    (hst : s.staging.state = .owned p) (ht : s.staging.timer = .counting since) :
    exec .ownershipIdleTimeout s = if since + 500 ≤ s.now then .next (freeStaging s) else .next s := by
  show execOwnershipIdleTimeout s = _
  rw [execOwnershipIdleTimeout, running_awake _ hr]
  simp [hst, ht, IdleTimer.expired, Config.ownershipIdle]

/-- Settles O37: each timer at its end, before it, and where it does not run. -/
theorem timersExpire : Obligations.TimersExpire := by
  refine ⟨fun p a s hr hst ha => ⟨fun h => ?_, fun h => ?_⟩, fun p s hr hst => ?_, fun d sda s l hr hl => ⟨fun h => ?_, fun h => ⟨fun hq => ?_, ?_⟩⟩,
    fun d sda s hr hl => ?_, fun p since s hr hst ht => ⟨fun h => ?_, fun h => ?_⟩, fun s hr hst => ?_⟩
  · rw [exec_holdLimitExpiry_waiting hr hst, endWait_expired ha h]
  · rw [exec_holdLimitExpiry_waiting hr hst, endWait_early ha h]
  · show execHoldLimitExpiry p s = _
    rw [execHoldLimitExpiry, running_awake _ hr]
    exact if_neg hst
  · rw [exec_leaseExpiry_some sda hr hl, if_neg (Nat.not_le.mpr h)]
  · rw [exec_leaseExpiry_some sda hr hl, if_pos h, endLease_quiet sda hq]
  · intro w a hst hw ha
    rw [exec_leaseExpiry_some sda hr hl, if_pos h]
    obtain ⟨hpass, hfail⟩ := endLease_grants sda hst hw ha
    exact ⟨fun h4 => congrArg _ (hpass h4), fun h4 => congrArg _ (hfail h4)⟩
  · show execLeaseExpiry d sda s = _
    rw [execLeaseExpiry, running_awake _ hr]
    simp only [hl]
  · rw [exec_ownershipIdleTimeout_owned hr hst ht, if_pos h]
    rfl
  · rw [exec_ownershipIdleTimeout_owned hr hst ht, if_neg (Nat.not_le.mpr h)]
  · show execOwnershipIdleTimeout s = _
    rw [execOwnershipIdleTimeout, running_awake _ hr]
    split
    · exact absurd (by assumption) (hst _)
    · rfl

/-! ## Valid commits (O38) -/

theorem complete_of_valid {p : Port} {s : State} (h : validate s.mgmtAddr s.staging.image = none) : complete p s = completeValid p s := by
  have hv : validation s = none := h
  simp only [complete, hv]

theorem detachContexts_ctx (f : Access → Bool) (s : State) (p : Port) : (detachContexts f s).ctx p = detachWhere f (s.ctx p) := by
  cases p <;> rfl

theorem completeValid_ctx (p q : Port) (s : State) :
    (completeValid p s).ctx q = detachWhere (detachedByCommit s.active s.staging.image) (s.ctx q) := by
  rw [← detachContexts_ctx]
  rfl

/-- The cursors of a committed map: absent where a changed entry names the key or the key is new, and else as before (R71, R72). -/
theorem committedCursors_cursor {old new : Table} {m : List CursorRec} {r : CursorRec} (hr : r ∈ committedCursors old new m) :
    (touched old new r.target = true → r.cursor = none) ∧ ((∀ x ∈ m, x.target ≠ r.target) → r.cursor = none) ∧
      (touched old new r.target = false → cursorsSorted m → ∀ x ∈ m, x.target = r.target → r.cursor = x.cursor) := by
  obtain ⟨n, _, _, _, hc⟩ := mem_committedCursors hr
  refine ⟨fun ht => by rw [hc, if_pos ht], fun hnew => ?_, fun ht hs x hx hxt => ?_⟩
  · rw [hc, cursorOf_of_not_mem hnew, ite_self]
  · rw [hc, ht, ← hxt, cursorOf_of_mem hs hx]
    rfl

/-- Settles O38: the fields of the completion, and the cursor map by its keys. -/
theorem validCommitCompletes : Obligations.ValidCommitCompletes := by
  intro p s hr hst hv
  refine ⟨completeValid p s, ?_, rfl, rfl, fun n => committedCounters_get .., rfl, rfl, ?_, ?_, fun q => ?_, rfl, rfl, rfl, rfl, rfl, rfl, hr, rfl,
    rfl, rfl, touched_iff _ _, committedCursors_sorted .., committedCursors_named _ _ hv, fun r hrec => committedCursors_cursor hrec⟩
  · rw [exec_commitCompletion, execCommitCompletion_committing hr hst, complete_of_valid hv]
  · cases p <;> rfl
  · cases p <;> rfl
  · rw [completeValid_ctx, detachWhere_eq]
    refine ⟨rfl, rfl, ?_⟩
    simp [detachedByCommit, changed, Bool.or_assoc]

end Sys2Proof.Machine
end

section
/-! PROOFS. The management commands but SOFT RESET (R83, R84, R95, R96, R104, R115, R118, R129, R133, R143 to R146, R153 to R177). -/

namespace Sys2Proof.Machine

/-! ## What a command's row reports -/

/-- On a port at rest and NORMAL the row of a command reports what the command gives. -/
theorem command_reports {p : Port} {c : Command} {sda : Line} {s t : State} {r : Result} (h : s.ready p)
    (hrun : runCommand p c sda s = (t, r)) : exec (rowOf p c sda) s = .next (reported p (commandCode c) r t) := by
  rw [exec_rowOf, commandRow_atRest c sda h.1, takeFrame_normal c sda h.2, hrun]

/-- The commands that a GUARDED port carries out are reported whatever the guard (R146). -/
theorem allowed_reports {p : Port} {c : Command} {sda : Line} {s t : State} {r : Result} (h : s.atRest p)
    (hc : allowedGuarded c = true) (hrun : runCommand p c sda s = (t, r)) :
    exec (rowOf p c sda) s = .next (reported p (commandCode c) r t) := by
  rw [exec_rowOf, commandRow_atRest c sda h, takeFrame_allowed sda hc, hrun]

/-- Settles O49: only the two commands that a GUARDED port carries out have their codes. -/
theorem guardedPortsRefuse : Obligations.GuardedPortsRefuse := by
  intro p c sda s h hg hview hclear
  have hc : allowedGuarded c = false := by
    cases c with
    | selectView v a o => exact absurd rfl (hview v a o)
    | clearError => exact absurd rfl hclear
    | _ => rfl
  rw [exec_rowOf, commandRow_atRest c sda h, takeFrame_guarded c sda hg hc]

/-! ## Port settings (O40) -/

theorem selectView_reports {p : Port} {s : State} {v a o : Byte} {w : View} (h : s.atRest p) (hw : viewOf v a = some w) :
    exec (.selectView p v a o) s = .next (reported p 0x11#8 .done (s.setMgmt p { s.mgmt p with selection := ⟨w, o.toNat⟩ })) :=
  allowed_reports (c := .selectView v a o) (sda := .high) h rfl (by simp only [runCommand, runSelectView, hw])

theorem selectView_invalid {p : Port} {s : State} {v a : Byte} (o : Byte) (h : s.atRest p) (hw : viewOf v a = none) :
    exec (.selectView p v a o) s = .next (reported p 0x11#8 .invalid s) :=
  allowed_reports (c := .selectView v a o) (sda := .high) h rfl (by simp only [runCommand, runSelectView, hw])

theorem viewOf_none {v a : Byte}
    (h : 6 ≤ v.toNat ∨ ((v = 0x01#8 ∨ v = 0x02#8) ∧ 32 ≤ a.toNat) ∨ (v = 0x05#8 ∧ 4 ≤ a.toNat)) : viewOf v a = none := by
  rcases h with h | ⟨rfl | rfl, ha⟩ | ⟨rfl, ha⟩
  · obtain ⟨k, hk⟩ : ∃ k, v.toNat = k + 6 := ⟨_, (Nat.sub_add_cancel h).symm⟩
    rw [viewOf, hk]
    rfl
  · simp [viewOf, entryOf_none ha]
  · simp [viewOf, entryOf_none ha]
  · simp [viewOf, segOf_none ha]

theorem modeOf_eq (b : Byte) : modeOf b = if b = 0x00#8 then some .stopping else if b = 0x01#8 then some .persistent else none := by
  have h0 : b.toNat = 0 ↔ b = 0x00#8 := BitVec.toNat_inj (y := 0x00#8)
  have h1 : b.toNat = 1 ↔ b = 0x01#8 := BitVec.toNat_inj (y := 0x01#8)
  unfold modeOf
  split
  case h_1 h => rw [if_pos (h0.mp h)]
  case h_2 h => rw [if_neg (fun e => by simp [e] at h), if_pos (h1.mp h)]
  case h_3 hn0 hn1 => rw [if_neg (fun e => hn0 (h0.mpr e)), if_neg (fun e => hn1 (h1.mpr e))]

/-- Settles O40: each view by its code, and the three other settings. -/
theorem portSettings : Obligations.PortSettings := by
  intro p s h
  refine ⟨fun v a o => ?_, ?_, fun hg => ⟨fun b => ?_, fun b => ?_⟩⟩
  · refine ⟨fun hv => ?_, fun n hv ha => ?_, fun n hv ha => ?_, fun hv => ?_, fun hv => ?_, fun d hv ha => ?_, fun hbad => ?_⟩
    · exact selectView_reports h (by rw [hv]; rfl)
    · exact selectView_reports h (by simp [hv, viewOf, entryOf_eq ha])
    · exact selectView_reports h (by simp [hv, viewOf, entryOf_eq ha])
    · exact selectView_reports h (by rw [hv]; rfl)
    · exact selectView_reports h (by rw [hv]; rfl)
    · exact selectView_reports h (by simp [hv, viewOf, segOf_eq ha])
    · exact selectView_invalid o h (viewOf_none hbad)
  · exact allowed_reports (c := .clearError) (sda := .high) h rfl rfl
  · have hrun := modeOf_eq b
    split
    case isTrue h0 =>
      exact command_reports (c := .setCheckMode b) (sda := .high) ⟨h, hg⟩ (by simp only [runCommand, runSetCheckMode, hrun, if_pos h0])
    case isFalse h0 =>
      split
      case isTrue h1 =>
        exact command_reports (c := .setCheckMode b) (sda := .high) ⟨h, hg⟩
          (by simp only [runCommand, runSetCheckMode, hrun, if_neg h0, if_pos h1])
      case isFalse h1 =>
        exact command_reports (c := .setCheckMode b) (sda := .high) ⟨h, hg⟩
          (by simp only [runCommand, runSetCheckMode, hrun, if_neg h0, if_neg h1])
  · split
    case isTrue hb =>
      exact command_reports (c := .setHoldLimit b) (sda := .high) ⟨h, hg⟩ (by simp only [runCommand, runSetHoldLimit, if_pos hb])
    case isFalse hb =>
      exact command_reports (c := .setHoldLimit b) (sda := .high) ⟨h, hg⟩ (by simp only [runCommand, runSetHoldLimit, if_neg hb])

/-! ## Segments (O41, O42, O43) -/

theorem configOf_none {v t e : Byte} (h : 4 ≤ v.toNat ∨ t.toNat = 0 ∨ 100 < t.toNat ∨ 2 ≤ e.toNat) : configOf v t e = none := by
  have hspeed : 4 ≤ v.toNat → speedOf v = none := by
    intro h
    obtain ⟨k, hk⟩ : ∃ k, v.toNat = k + 4 := ⟨_, (Nat.sub_add_cancel h).symm⟩
    rw [speedOf, hk]
    rfl
  have honoff : 2 ≤ e.toNat → onOff e = none := by
    intro h
    obtain ⟨k, hk⟩ : ∃ k, e.toNat = k + 2 := ⟨_, (Nat.sub_add_cancel h).symm⟩
    rw [onOff, hk]
    rfl
  unfold configOf
  rcases h with h | h | h | h
  · rw [hspeed h]
  · split
    · exact if_neg (by omega)
    · rfl
  · split
    · exact if_neg (by omega)
    · rfl
  · rw [honoff h]
    cases speedOf v <;> rfl

theorem configOf_some {speed stall enable : Byte} {v : Speed} {on : Bool}
    (hv : (speed, v) ∈ [(0x00#8, Speed.k50), (0x01#8, .k100), (0x02#8, .k400), (0x03#8, .k1000)])
    (hon : (enable, on) ∈ [(0x00#8, false), (0x01#8, true)]) (hlow : 1 ≤ stall.toNat) (hhigh : stall.toNat ≤ 100) :
    configOf speed stall enable = some ⟨v, stall.toNat, on⟩ := by
  have hspeed : speedOf speed = some v := by
    simp only [List.mem_cons, Prod.mk.injEq, List.not_mem_nil, or_false] at hv
    rcases hv with ⟨rfl, rfl⟩ | ⟨rfl, rfl⟩ | ⟨rfl, rfl⟩ | ⟨rfl, rfl⟩ <;> rfl
  have honoff : onOff enable = some on := by
    simp only [List.mem_cons, Prod.mk.injEq, List.not_mem_nil, or_false] at hon
    rcases hon with ⟨rfl, rfl⟩ | ⟨rfl, rfl⟩ <;> rfl
  simp only [configOf, hspeed, honoff]
  exact if_pos ⟨hlow, hhigh⟩

/-- CONFIGURE SEGMENT only stores the configuration where the segment already runs, or stands still, as it asks (R95). -/
theorem configure_kept {d : Seg} {c : SegConfig} {s : State}
    (hst : ((s.seg d).state = .idle ∧ c.enable = true) ∨ ((s.seg d).state = .disabled ∧ c.enable = false)) :
    configure d c s = s.setSeg d { s.seg d with config := c } := by
  unfold configure
  rcases hst with ⟨h, hc⟩ | ⟨h, hc⟩ <;> split <;> simp_all

/-- CONFIGURE SEGMENT with enable off on an IDLE or FAULT segment (R95). -/
theorem configure_off {d : Seg} {c : SegConfig} {s : State} (hst : (s.seg d).state = .idle ∨ (s.seg d).state = .fault)
    (hc : c.enable = false) : configure d c s = refuseDown (s.seg d).waiting []
      (s.setSeg d { s.seg d with config := c, state := .disabled, lease := none, waiters := [] }) := by
  unfold configure
  rcases hst with h | h <;> simp only [h, hc, Bool.false_eq_true, if_false]

theorem configure_on {d : Seg} {c : SegConfig} {s : State} (hst : (s.seg d).state = .disabled ∨ (s.seg d).state = .fault)
    (hc : c.enable = true) : configure d c s = s.setSeg d { s.seg d with
      config := c, state := .recovering, holder := none, bus := .idle, transfer := none, openAfter := false } := by
  unfold configure
  rcases hst with h | h <;> simp only [h, hc, if_true, Segment.recover]

theorem configure_pended {d : Seg} {c : SegConfig} {s : State} (hst : (s.seg d).state = .held ∨ (s.seg d).state = .recovering) :
    configure d c s = s.setSeg d { s.seg d with pendingConfig := some c } := by
  unfold configure
  rcases hst with h | h <;> simp only [h]

/-- Settles O41: by the range of the items, and by the segment's state. -/
theorem configureSegment : Obligations.ConfigureSegment := by
  intro p seg speed stall enable s h
  refine ⟨fun hbad => ?_, fun d v on hd hv hlow hhigh hon => ?_⟩
  · refine command_reports (c := .configureSegment seg speed stall enable) (sda := .high) h ?_
    simp only [runCommand, runConfigureSegment]
    rcases hbad with hs | hbad
    · rw [segOf_none hs]
    · rw [configOf_none hbad]
      cases segOf seg <;> rfl
  · intro c g answers
    have hexec : exec (.configureSegment p seg speed stall enable) s = .next (reported p 0x21#8 .done (configure d c s)) :=
      command_reports (c := .configureSegment seg speed stall enable) (sda := .high) h
        (by simp only [runCommand, runConfigureSegment, segOf_eq hd, configOf_some hv hon hlow hhigh]; rfl)
    have hanswers : ∀ g', configure d c s = s.setSeg d g' → answers g' := fun g' hg' => hexec.trans (by rw [hg'])
    refine ⟨fun hst => hanswers _ (configure_pended hst), fun hst hc => hanswers _ (configure_kept (.inl ⟨hst, hc⟩)),
      fun hst hc => hanswers _ (configure_kept (.inr ⟨hst, hc⟩)), fun hst hc => hanswers _ (configure_on hst hc),
      fun hst hc => ⟨fun hw => hanswers _ ?_, fun ws hws => ⟨_, hexec, ?_⟩⟩⟩
    · have hw : (s.seg d).waiters = [] := hw
      rw [configure_off hst hc]
      simp [Segment.waiting, hw, refuseDown_nil, handTogether, g]
    · rw [configure_off hst hc]
      have htakes := refuseDown_setSeg (d := d) (g := { s.seg d with config := c, state := .disabled, lease := none, waiters := [] }) hws []
      rw [List.append_nil] at htakes
      exact htakes

/-- Settles O42: by the segment's state. -/
theorem recoverSegment : Obligations.RecoverSegment := by
  intro p b s h
  refine ⟨fun hb => ?_, fun d hd => ⟨fun hst => ?_, fun hst => ?_⟩⟩
  · exact command_reports (c := .recoverSegment b) (sda := .high) h (by simp only [runCommand, runRecoverSegment, segOf_none hb])
  · refine command_reports (c := .recoverSegment b) (sda := .high) h ?_
    simp only [runCommand, runRecoverSegment, segOf_eq hd]
    rcases hst with hst | hst <;> simp only [hst, Segment.recover]
  · refine command_reports (c := .recoverSegment b) (sda := .high) h ?_
    simp only [runCommand, runRecoverSegment, segOf_eq hd]
    rcases hst with hst | hst | hst <;> simp only [hst]

theorem leasable_iff (g : Segment) : leasable g = true ↔ ¬ (g.state = .disabled ∨ g.state = .fault) := by
  cases h : g.state <;> simp [leasable, h]

theorem releaseLease_reports {p : Port} {b : Byte} {sda : Line} {s : State} {d : Seg} {l : Lease} (h : s.ready p) (hd : b.toNat = d.val)
    (hl : (s.seg d).lease = some l) (hp : l.holder = p) :
    exec (.releaseLease p b sda) s = .next (reported p 0x24#8 .done (endLease d sda s)) :=
  command_reports (c := .releaseLease b) (sda := sda) h (by simp only [runCommand, runReleaseLease, segOf_eq hd, hl, hp, if_true])

/-- Settles O43: by the range of the items, and by the lease that the segment has. -/
theorem leases : Obligations.Leases := by
  intro p b w sda s h
  refine ⟨fun hbad => ?_, fun hb => ?_, fun d hd => ?_⟩
  · refine command_reports (c := .leaseSegment b w) (sda := .high) h ?_
    simp only [runCommand, runLeaseSegment]
    rcases hbad with hb | hbad
    · rw [segOf_none hb]
    · split
      · rfl
      · exact if_pos hbad
  · exact command_reports (c := .releaseLease b) (sda := sda) h (by simp only [runCommand, runReleaseLease, segOf_none hb])
  · intro down others
    refine ⟨fun hlow hhigh => ?_, fun ho => ?_, fun hnone => ?_, fun l hl hp hq => ?_, fun l x a hl hp hst hw ha => ?_⟩
    · have hrange : ¬ (w.toNat = 0 ∨ 2000 < w.toNat) := by omega
      refine ⟨fun hdown => ?_, fun hdown ho => ?_, fun hdown ho => ?_⟩
      · have hlease : leasable (s.seg d) = false := by rw [← Bool.not_eq_true, leasable_iff]; exact not_not.mpr hdown
        exact command_reports (c := .leaseSegment b w) (sda := .high) h
          (by simp only [runCommand, runLeaseSegment, segOf_eq hd, if_neg hrange, hlease, Bool.not_false, if_true])
      · have hlease : leasable (s.seg d) = true := (leasable_iff _).mpr hdown
        have hbar : barred (s.seg d) p = true := (barred_iff _ _).mpr ho
        exact command_reports (c := .leaseSegment b w) (sda := .high) h
          (by simp only [runCommand, runLeaseSegment, segOf_eq hd, if_neg hrange, hlease, hbar, Bool.not_true, Bool.false_eq_true,
            if_false, if_true])
      · have hlease : leasable (s.seg d) = true := (leasable_iff _).mpr hdown
        have hbar : barred (s.seg d) p = false := by rw [← Bool.not_eq_true, barred_iff]; exact ho
        exact command_reports (c := .leaseSegment b w) (sda := .high) h
          (by simp only [runCommand, runLeaseSegment, segOf_eq hd, if_neg hrange, hlease, hbar, Bool.not_true, Bool.false_eq_true,
            if_false])
    · obtain ⟨l, hl, hne⟩ := ho
      have hl : (s.seg d).lease = some l := hl
      exact command_reports (c := .releaseLease b) (sda := sda) h
        (by simp only [runCommand, runReleaseLease, segOf_eq hd, hl, if_neg hne])
    · exact command_reports (c := .releaseLease b) (sda := sda) h (by simp only [runCommand, runReleaseLease, segOf_eq hd, hnone])
    · rw [releaseLease_reports h hd hl hp, endLease_quiet sda hq]
    · rw [releaseLease_reports h hd hl hp]
      obtain ⟨hpass, hfail⟩ := endLease_grants sda hst hw ha
      exact ⟨fun h4 => by rw [hpass h4], fun h4 => by rw [hfail h4]⟩

end Sys2Proof.Machine
end

section
/-! PROOFS. The management commands on the log, the counters, the mask, the cursors and the staging unit (R83, R84, R129, R163 to R177). -/

namespace Sys2Proof.Machine

/-! ## Log, counters and attention mask (O44) -/

/-- Settles O44: each command by the range of its item. -/
theorem logCountersAndMask : Obligations.LogCountersAndMask := by
  intro p s h
  refine ⟨fun q older newer v hl hv hnew => ?_, fun q hq => ?_, fun n => ?_, ?_, fun b hlow hhigh => ?_, fun b => ?_⟩
  · have hacknowledged : acknowledged q s.log.records = some newer := by rw [hl]; exact acknowledged_append hv hnew
    exact command_reports (c := .acknowledgeLog q) (sda := .high) h (by simp only [runCommand, runAcknowledgeLog, hacknowledged])
  · exact command_reports (c := .acknowledgeLog q) (sda := .high) h (by simp only [runCommand, runAcknowledgeLog, acknowledged_none hq])
  · exact command_reports (c := .clearCounters (BitVec.ofNat 8 n.val)) (sda := .high) h
      (by simp only [runCommand, runClearCounters, entrySelOf, entryOf_ofNat]; rfl)
  · exact command_reports (c := .clearCounters 0xFF#8) (sda := .high) h rfl
  · exact command_reports (c := .clearCounters b) (sda := .high) h
      (by simp only [runCommand, runClearCounters, entrySelOf_between hlow hhigh])
  · split
    case isTrue hb =>
      exact command_reports (c := .setAttentionMask b) (sda := .high) h
        (by simp only [runCommand, runSetAttentionMask, maskOf, if_pos hb])
    case isFalse hb =>
      exact command_reports (c := .setAttentionMask b) (sda := .high) h
        (by simp only [runCommand, runSetAttentionMask, maskOf, if_neg hb])

/-! ## INVALIDATE CURSOR (O45) -/

theorem invalidateAll_reports {p : Port} {s : State} (h : s.ready p) :
    exec (.invalidateCursor p 0xFF#8) s = .next (reported p 0x33#8 .done (invalidateAll s)) :=
  command_reports (c := .invalidateCursor 0xFF#8) (sda := .high) h rfl

theorem invalidateEntry_reports {p : Port} {s : State} (n : Fin 32) (h : s.ready p) :
    exec (.invalidateCursor p (BitVec.ofNat 8 n.val)) s = .next (reported p 0x33#8 .done (invalidateEntry s.active[n] s)) :=
  command_reports (c := .invalidateCursor (BitVec.ofNat 8 n.val)) (sda := .high) h
    (by simp only [runCommand, runInvalidateCursor, entrySelOf, entryOf_ofNat])

theorem findCursor_isNone_iff (m : List CursorRec) (t : Target) : (findCursor m t).isNone = true ↔ ∀ r ∈ m, r.target ≠ t := by
  simp [findCursor, List.find?_eq_none]

theorem invalidateEntry_keeps {e : Entry} {s : State} (h : e.width = .zero ∨ ∀ r ∈ s.cursors, r.target ≠ e.target) :
    invalidateEntry e s = s :=
  if_pos (by rw [Bool.or_eq_true, decide_eq_true_eq, findCursor_isNone_iff]; exact h)

theorem invalidateEntry_clears {e : Entry} {s : State} (hw : e.width ≠ .zero) (hr : ∃ r ∈ s.cursors, r.target = e.target) :
    invalidateEntry e s = detachContexts (fun a => a.held.isSome && a.copy.target = e.target)
      (s.setCursors (clearCursors (fun t => t = e.target) s.cursors)) := by
  refine if_neg ?_
  rw [Bool.or_eq_true, decide_eq_true_eq, findCursor_isNone_iff]
  rintro (h | h)
  · exact hw h
  · obtain ⟨r, hm, ht⟩ := hr
    exact h r hm ht

/-- Settles O45: every target, and the target of one entry. -/
theorem invalidateCursor : Obligations.InvalidateCursor := by
  intro p s h
  refine ⟨fun b hlow hhigh => ?_, ?_, fun n => ?_⟩
  · exact command_reports (c := .invalidateCursor b) (sda := .high) h
      (by simp only [runCommand, runInvalidateCursor, entrySelOf_between hlow hhigh])
  · rw [invalidateAll_reports h, invalidateAll, detachContexts, detachWhere_eq, detachWhere_eq]
    simp only [clearCursors, if_true]
    rfl
  · intro e detach
    rw [invalidateEntry_reports n h]
    refine ⟨fun hnone => ?_, fun hw hr => ?_⟩
    · rw [invalidateEntry_keeps hnone]
    · rw [invalidateEntry_clears hw hr, detachContexts, detachWhere_eq, detachWhere_eq]
      simp only [clearCursors, decide_eq_true_eq]
      rfl

/-! ## The staging unit (O46, O47) -/

theorem stage_free {p : Port} {n : Fin 32} {m : Word16} {i : EntryImage} {s : State} (h : s.staging.state = .free) :
    stage p n m i s = s.setStaging ⟨s.staging.image.set n (stageFields m i s.staging.image[n]), .owned p, .counting s.now,
      s.staging.outcome⟩ := by
  simp only [stage, h, if_true]

theorem stage_owned {p : Port} {n : Fin 32} {m : Word16} {i : EntryImage} {s : State} (h : s.staging.state = .owned p) :
    stage p n m i s = s.setStaging { s.staging with image := s.staging.image.set n (stageFields m i s.staging.image[n]) } := by
  simp only [stage, h, reduceCtorEq, if_false]

theorem stageEntry_reports {p : Port} {b : Byte} {m : Word16} {i : EntryImage} {s t : State} {r : Result} (h : s.ready p)
    (hrun : runStageEntry p b m i s = (t, r)) : exec (.stageEntry p b m i) s = .next (reported p 0x41#8 r t) :=
  command_reports (c := .stageEntry b m i) (sda := .high) h hrun

theorem commit_reports {p : Port} {s t : State} {r : Result} (h : s.ready p) (hrun : runCommit p s = (t, r)) :
    exec (.commit p) s = .next (reported p 0x44#8 r t) :=
  command_reports (c := .commit) (sda := .high) h hrun

/-- Settles O46: the arguments, then the state of the staging unit. -/
theorem stageAndCommit : Obligations.StageAndCommit := by
  intro p s h
  refine ⟨fun b m i => ?_, fun hst => ?_, fun hst => ?_, fun q hst => ?_⟩
  · intro bad
    refine ⟨fun hbad => stageEntry_reports h ?_, fun n hn hok => ?_⟩
    · rcases hbad with hb | hbad
      · rw [runStageEntry, entryOf_none hb]
      · have hargs : stageArgsOk m i = false := (stageArgsOk_false_iff m i).mpr hbad
        unfold runStageEntry
        split
        · rfl
        · rw [hargs]; rfl
    · intro old entry image
      have hargs : stageArgsOk m i = true := by
        rw [← Bool.not_eq_false, stageArgsOk_false_iff]; exact hok
      have hentry : stageFields m i s.staging.image[n] = entry := stageFields_eq m i _ hargs
      refine ⟨fun hst => stageEntry_reports h ?_, fun hst => stageEntry_reports h ?_, fun hst => stageEntry_reports h ?_,
        fun q hst => stageEntry_reports h ?_⟩
      · simp only [runStageEntry, entryOf_eq hn, hargs, Bool.not_true, Bool.false_eq_true, if_false, hst]
        rw [stage_free hst, hentry]
      · have hrun : runStageEntry p b m i s = (stage p n m i s, .done) := by
          simp only [runStageEntry, entryOf_eq hn, hargs, Bool.not_true, Bool.false_eq_true, if_false, hst, if_true]
        rw [hrun, stage_owned hst, hentry]
      · simp only [runStageEntry, entryOf_eq hn, hargs, Bool.not_true, Bool.false_eq_true, if_false, hst, if_neg (other_ne p)]
      · simp only [runStageEntry, entryOf_eq hn, hargs, Bool.not_true, Bool.false_eq_true, if_false, hst]
  · exact commit_reports h (by simp only [runCommit, hst, if_true])
  · refine commit_reports h ?_
    rcases hst with hst | hst
    · simp only [runCommit, hst]
    · simp only [runCommit, hst, if_neg (other_ne p)]
  · exact commit_reports h (by simp only [runCommit, hst])

theorem revert_reports {p : Port} {s t : State} {r : Result} (h : s.ready p) (hrun : runRevertStaging p s = (t, r)) :
    exec (.revertStaging p) s = .next (reported p 0x42#8 r t) :=
  command_reports (c := .revertStaging) (sda := .high) h hrun

theorem discard_reports {p : Port} {s t : State} {r : Result} (h : s.ready p) (hrun : runDiscardStaging p s = (t, r)) :
    exec (.discardStaging p) s = .next (reported p 0x43#8 r t) :=
  command_reports (c := .discardStaging) (sda := .high) h hrun

/-- Settles O47: by the state of the staging unit. -/
theorem revertAndDiscard : Obligations.RevertAndDiscard := by
  intro p s h
  refine ⟨fun hst => ⟨?_, ?_⟩, fun hst => ⟨revert_reports h ?_, discard_reports h ?_⟩,
    fun q hst => ⟨revert_reports h ?_, discard_reports h ?_⟩⟩
  · rw [revert_reports (t := s.setStaging { s.staging with image := s.active }) (r := .done) h
      (by simp only [runRevertStaging, hst, if_true])]
    simp [reported, hst]
  · rw [discard_reports (t := freeStaging s) (r := .done) h (by simp only [runDiscardStaging, hst, if_true])]
    simp [reported, freeStaging]
  · rcases hst with hst | hst
    · simp only [runRevertStaging, hst]
    · simp only [runRevertStaging, hst, if_neg (other_ne p)]
  · rcases hst with hst | hst
    · simp only [runDiscardStaging, hst]
    · simp only [runDiscardStaging, hst, if_neg (other_ne p)]
  · simp only [runRevertStaging, hst]
  · simp only [runDiscardStaging, hst]

end Sys2Proof.Machine
end

section
/-! PROOFS. The queue, the resets, and the lines (R37 to R39, R87, R89, R103, R132, R134). -/

namespace Sys2Proof.Machine

/-- Settles O1: the two branches of a step. -/
theorem stepTakesTheFront : Obligations.StepTakesTheFront :=
  ⟨fun _ _ _ => rfl, fun s h => by rw [step, h]⟩

/-! ## The resets (O2, O3, O4) -/

/-- Settles O2: each port and each segment is as at power-on. -/
theorem resetValues : Obligations.ResetValues := by
  refine ⟨rfl, rfl, rfl, reset_counters, rfl, rfl, rfl, fun p => ?_, reset_seg⟩
  cases p with
  | A => exact ⟨rfl, rfl, rfl, rfl, rfl, rfl, rfl, rfl, rfl⟩
  | B => exact ⟨rfl, rfl, rfl, rfl, rfl, rfl, rfl, rfl, rfl⟩

theorem FrontEnd.powerOn_eq (l : Line) :
    FrontEnd.powerOn l = ⟨.free, .none, .address, false, .released, if l = .low then .counting else .stopped⟩ := by
  cases l <;> rfl

/-- The straps give the four management addresses from 0x48 on (R32). -/
theorem mgmtAddr_release (ma1 ma0 : Bool) (a b : Line) (s : State) :
    (release ma1 ma0 a b s).mgmtAddr.toNat = 0x48 + 2 * ma1.toNat + ma0.toNat := by
  have hstraps : (0x48#7 + (strapValue ma1 ma0).zeroExtend 7).toNat = 0x48 + 2 * ma1.toNat + ma0.toNat := by
    cases ma1 <;> cases ma0 <;> rfl
  exact hstraps

/-- Settles O3: a release sets every piece of state. -/
theorem releaseGivesThePowerOnState : Obligations.ReleaseGivesThePowerOnState := by
  intro ma1 ma0 a b s
  refine ⟨rfl, fun h => if_pos h, fun h => if_neg (by rw [h]; exact Bool.false_ne_true), mgmtAddr_release ma1 ma0 a b s, fun p => ?_⟩
  cases p with
  | A => exact FrontEnd.powerOn_eq a
  | B => exact FrontEnd.powerOn_eq b

theorem Segment.inReset_state_ne_held (g : Segment) : g.inReset.state ≠ .held := by
  unfold Segment.inReset
  split <;> simp_all

/-- While RESET_N is low, no event but the resets has an effect. -/
theorem exec_inReset {c : Instr} {s : State} (h : s.inReset = true) (hlow : c ≠ .resetNLow) (hon : ∀ w x y z, c ≠ .powerOn w x y z)
    (hrelease : ∀ w x y z, c ≠ .resetNRelease w x y z) : exec c s = .next s := by
  cases c with
  | powerOn w x y z => exact absurd rfl (hon w x y z)
  | resetNLow => exact absurd rfl hlow
  | resetNRelease w x y z => exact absurd rfl (hrelease w x y z)
  | _ => exact if_pos h

/-- Settles O4: `resetLow_eq` for what a taken reset leaves, `exec_inReset` for the events while it lasts. -/
theorem resetLowEndsEverything : Obligations.ResetLowEndsEverything := by
  refine ⟨fun s => ?_, fun _ _ => exec_inReset⟩
  obtain ⟨t, ht⟩ : ∃ t, exec .resetNLow s = .next t := ⟨_, rfl⟩
  have hseg := resetLow_seg ht
  refine ⟨t, ht, ?_⟩
  obtain ⟨g, hcommit, hout, _, rfl⟩ := resetLow_eq ht
  refine ⟨rfl, rfl, fun p => ?_, fun d => ?_, hcommit, hout, rfl, rfl, rfl, rfl, rfl, rfl, rfl, rfl, rfl⟩
  · cases p with
    | A => exact ⟨rfl, rfl, rfl, rfl, rfl, rfl⟩
    | B => exact ⟨rfl, rfl, rfl, rfl, rfl, rfl⟩
  · rw [hseg]
    exact ⟨rfl, rfl, rfl, rfl, rfl, rfl, (s.seg d).inReset_state_ne_held, rfl⟩

/-! ## The lines (O60) -/

theorem logActive_iff (s : State) : logActive s = true ↔ s.log.records ≠ [] ∨ s.log.dropped ≠ 0 := by
  simp [logActive]

theorem checkActive_iff (s : State) : checkActive s = true ↔ ∃ p, (s.mgmt p).firstError ≠ none := by
  rw [checkActive, Bool.or_eq_true, Option.isSome_iff_ne_none, Option.isSome_iff_ne_none]
  constructor
  · rintro (h | h)
    · exact ⟨.A, h⟩
    · exact ⟨.B, h⟩
  · rintro ⟨p, h⟩
    cases p with
    | A => exact .inl h
    | B => exact .inr h

theorem faultActive_iff (s : State) : faultActive s = true ↔ ∃ d, (s.seg d).state = .fault := by
  simp only [faultActive, Bool.or_eq_true, decide_eq_true_eq]
  constructor
  · rintro (((h | h) | h) | h)
    · exact ⟨0, h⟩
    · exact ⟨1, h⟩
    · exact ⟨2, h⟩
    · exact ⟨3, h⟩
  · rintro ⟨d, h⟩
    match d with
    | 0 => exact .inl (.inl (.inl h))
    | 1 => exact .inl (.inl (.inr h))
    | 2 => exact .inl (.inr h)
    | 3 => exact .inr h

theorem attnLow_iff (s : State) : attnLow s = true ↔ s.inReset = false ∧
    ((s.mask.log = true ∧ (s.log.records ≠ [] ∨ s.log.dropped ≠ 0)) ∨
      (s.mask.check = true ∧ ∃ p, (s.mgmt p).firstError ≠ none) ∨
      (s.mask.fault = true ∧ ∃ d, (s.seg d).state = .fault)) := by
  simp only [attnLow, Bool.and_eq_true, Bool.or_eq_true, Bool.not_eq_true', logActive_iff, checkActive_iff, faultActive_iff, or_assoc]

/-- Between the transfers of a holder the stall timer does not run (R96). -/
theorem exec_stallTimeout_untimed {d : Seg} {s : State} (hr : s.inReset = false) (hst : (s.seg d).state = .held)
    (hx : (s.seg d).transfer = none) (hh : (s.seg d).holder ≠ none) : exec (.stallTimeout d) s = .fault .notInProgress := by
  change execStallTimeout d s = _
  have huntimed : stallTimed (s.seg d) = false := by simpa [stallTimed, hst, hx] using Option.isSome_iff_ne_none.mpr hh
  simp only [execStallTimeout, running, hr, huntimed, Bool.not_false, Bool.false_eq_true, if_false, if_true]

/-- Settles O60: the sources one by one, and the state of the segment. -/
theorem attentionLine : Obligations.AttentionLine := by
  refine ⟨attnLow_iff, fun s d => ⟨fun hr => if_pos hr, fun hr => ?_⟩⟩
  have hlines : segLines s d = (s.seg d).lines := by rw [segLines, hr]; rfl
  rw [hlines]
  refine ⟨fun hst => ?_, fun hst => ?_, fun hst hx => ?_, fun hst hx hbus => ?_, fun hst hx hbus => ⟨?_, fun hh => ?_⟩⟩
  · rcases hst with hst | hst | hst <;> simp only [Segment.lines, hst]
  · simp only [Segment.lines, hst]
  · have hclock : ((s.seg d).transfer.isSome || (s.seg d).bus = .closing) = true := by
      rw [Bool.or_eq_true, Option.isSome_iff_ne_none, decide_eq_true_eq]; exact hx
    simp only [Segment.lines, hst, hclock, if_true]
  · simp [Segment.lines, hst, hx, hbus]
  · simp [Segment.lines, hst, hx, hbus]
  · exact exec_stallTimeout_untimed hr hst hx hh

end Sys2Proof.Machine
end

section
/-! PROOFS. A read of the management address: the snapshot, and the six views as bytes (R86, R121, R130, R150, R151, R184 to R187). -/

namespace Sys2Proof.Machine

/-! ## The snapshot -/

theorem viewBytes_atMatch (p : Port) (s : State) (dir : Dir) (a : Option Access) :
    viewBytes p (s.atMatch p dir a) = viewBytes p (s.setFe p ((s.fe p).addressed dir)) := by
  cases p <;> rfl

theorem addressOutcome_snapshot_eq (s : State) (p : Port) (dir : Dir) (a : Option Access) :
    addressOutcome p .snapshot (s.atMatch p dir a) = (s.setFe p ((s.fe p).addressed dir)).viewing p := by
  obtain ⟨_, _, hsnapshot, _, _⟩ := addressOutcome_resolves p .snapshot (s.atMatch p dir a)
  rw [hsnapshot rfl, State.viewing, State.viewing, viewBytes_atMatch]
  simp [State.atMatch]

/-! ## Bytes of flags and codes -/

theorem flagBytes_eq : ∀ a b c d e f g : Bool,
    flagBit a 7 ||| flagBit b 6 ||| flagBit c 5 ||| flagBit d 4 ||| flagBit e 3 ||| flagBit f 2 ||| flagBit g 1 =
      BitVec.ofNat 8 (128 * a.toNat + 64 * b.toNat + 32 * c.toNat + 16 * d.toNat + 8 * e.toNat + 4 * f.toNat + 2 * g.toNat) := by
  decide

theorem attentionFlags_eq : ∀ a b c d e f : Bool,
    flagBit a 0 ||| flagBit b 1 ||| flagBit c 2 ||| flagBit d 4 ||| flagBit e 5 ||| flagBit f 6 =
      BitVec.ofNat 8 (a.toNat + 2 * b.toNat + 4 * c.toNat + 16 * d.toNat + 32 * e.toNat + 64 * f.toNat) := by
  decide

theorem checkFlags_eq : ∀ a b c : Bool,
    flagBit a 0 ||| flagBit b 1 ||| flagBit c 2 = BitVec.ofNat 8 (a.toNat + 2 * b.toNat + 4 * c.toNat) := by
  decide

theorem waitingFlags_eq : ∀ a b : Bool, flagBit a 0 ||| flagBit b 1 = BitVec.ofNat 8 (a.toNat + 2 * b.toNat) := by
  decide

theorem flagBit_zero (a : Bool) : flagBit a 0 = BitVec.ofNat 8 a.toNat := by cases a <;> rfl

theorem zeroExtend_eq (x : Addr7) : x.zeroExtend 8 = BitVec.ofNat 8 x.toNat := by
  apply BitVec.eq_of_toNat_eq
  simp

theorem segmentByte_eq (g : Segment) :
    segmentByte g = segStateCode g.state + BitVec.ofNat 8 (16 * (portCode (g.lease.map Lease.holder)).toNat) := by
  have hbyte : ∀ st ∈ [SegState.disabled, .idle, .held, .recovering, .fault], ∀ o ∈ [none, some Port.A, some .B],
      segStateCode st ||| (portCode o <<< 4) = segStateCode st + BitVec.ofNat 8 (16 * (portCode o).toNat) := by decide
  refine hbyte g.state ?_ (g.lease.map Lease.holder) ?_
  · cases g.state <;> decide
  · cases g.lease with
    | none => decide
    | some l => cases h : l.holder <;> simp [h]

theorem segWidthByte_eq (d : Seg) (w : IndexWidth) :
    (BitVec.ofNat 8 d.val <<< 4) ||| widthCode w = BitVec.ofNat 8 (16 * d.val) + widthCode w := by
  have hbyte : ∀ d : Seg, ∀ w ∈ [IndexWidth.zero, .one, .two],
      (BitVec.ofNat 8 d.val <<< 4) ||| widthCode w = BitVec.ofNat 8 (16 * d.val) + widthCode w := by decide
  exact hbyte d w (by cases w <;> decide)

theorem originByte_eq (o : Option Port) (dir : Option Dir) (i : Bool) :
    (portCode o <<< 6) ||| (dirCode dir <<< 4) ||| flagBit i 0 =
      BitVec.ofNat 8 (64 * (portCode o).toNat + 16 * (dirCode dir).toNat + i.toNat) := by
  have hbyte : ∀ o ∈ [none, some Port.A, some .B], ∀ dir ∈ [none, some Dir.read, some .write], ∀ i : Bool,
      (portCode o <<< 6) ||| (dirCode dir <<< 4) ||| flagBit i 0 =
        BitVec.ofNat 8 (64 * (portCode o).toNat + 16 * (dirCode dir).toNat + i.toNat) := by decide
  refine hbyte o ?_ dir ?_ i
  · rcases o with _ | _ | _ <;> decide
  · rcases dir with _ | _ | _ <;> decide

theorem mgmtAddrByte_eq (s : State) : s.mgmtAddr.zeroExtend 8 = BitVec.ofNat 8 (0x48 + s.straps.toNat) := by
  have hbyte : ∀ x : BitVec 2, (0x48#7 + x.zeroExtend 7).zeroExtend 8 = BitVec.ofNat 8 (0x48 + x.toNat) := by decide
  exact hbyte s.straps

/-! ## The pieces of the views -/

theorem portsHas_eq (e : Entry) (p : Port) : e.ports.has p = decide (e.includes p) := by
  rw [Bool.eq_iff_iff, PortSet.has_iff, decide_eq_true_eq]

theorem imageBytes_entryImage (e : Entry) : imageBytes (entryImage e) =
    [BitVec.ofNat 8 (128 * e.enabled.toNat + 64 * (decide (e.includes .A)).toNat + 32 * (decide (e.includes .B)).toNat +
        16 * e.blind.toNat + 8 * e.quiet.toNat + 4 * e.readWin.present.toNat + 2 * e.writeWin.present.toNat),
      BitVec.ofNat 8 e.upAddr.toNat, BitVec.ofNat 8 (16 * e.segment.val) + widthCode e.width, BitVec.ofNat 8 e.downAddr.toNat,
      e.limit] ++
    wordBytes e.readWin.low ++ wordBytes e.readWin.high ++ wordBytes e.writeWin.low ++ wordBytes e.writeWin.high := by
  simp only [imageBytes, entryImage, flagBytes_eq, portsHas_eq, zeroExtend_eq, segWidthByte_eq]

theorem imageBytes_length (i : EntryImage) : (imageBytes i).length = 13 := rfl

theorem stagingBytes_length (g : StagingState) : (stagingBytes g).length = 2 := by cases g <;> rfl

theorem outcomeBytes_length (o : CommitOutcome) : (outcomeBytes o).length = 3 := by cases o <;> rfl

theorem detailBytes_length (r : Result) : (detailBytes r).length = 2 := by
  unfold detailBytes
  split <;> rfl

theorem cursorBytes_length (c : Option Word16) : (cursorBytes c).length = 3 := by cases c <;> rfl

theorem violationBytes_length (v : Violation) : (violationBytes v).length = 12 := by simp [violationBytes, wordBytes]

theorem violationBytes_eq (v : Violation) : violationBytes v =
    wordBytes v.sequence ++
    [kindCode v.report.kind,
      BitVec.ofNat 8 (64 * (portCode v.report.port).toNat + 16 * (dirCode v.report.dir).toNat + v.report.index.isSome.toNat),
      (v.report.upAddr.map (fun x => BitVec.ofNat 8 x.toNat)).getD 0xFF#8,
      (v.report.entry.map (fun k => BitVec.ofNat 8 k.val)).getD 0xFF#8, BitVec.ofNat 8 v.report.segment.val] ++
    wordBytes (v.report.index.getD 0) ++ wordBytes v.report.generation ++ [BitVec.ofNat 8 v.report.offset] := by
  simp only [violationBytes, originByte_eq, zeroExtend_eq]
  cases v.report.upAddr <;> cases v.report.entry <;> rfl

theorem stagingBytes_of {g : StagingState} {bytes : List Byte} (hfree : g = .free → bytes = [0, 0])
    (howned : ∀ q, g = .owned q → bytes = [1, portCode (some q)])
    (hcommitting : ∀ q, g = .committing q → bytes = [2, portCode (some q)]) : stagingBytes g = bytes := by
  cases g with
  | free => exact (hfree rfl).symm
  | owned q => exact (howned q rfl).symm
  | committing q => exact (hcommitting q rfl).symm

theorem outcomeBytes_of {o : CommitOutcome} {bytes : List Byte} (hnone : o = .none → bytes = [0, 0, 0])
    (hdone : o = .done → bytes = [1, 0, 0])
    (hrejected : ∀ k r, o = .rejected k r → bytes = [2, BitVec.ofNat 8 k.val, reasonCode r])
    (habandoned : o = .abandoned → bytes = [3, 0, 0]) : outcomeBytes o = bytes := by
  cases o with
  | none => exact (hnone rfl).symm
  | done => exact (hdone rfl).symm
  | rejected k r => exact (hrejected k r rfl).symm
  | abandoned => exact (habandoned rfl).symm

theorem detailBytes_of {r : Result} {bytes : List Byte} (hplain : (∀ why, r ≠ .rejected why) → bytes = [0, 0])
    (hentry : ∀ k why, r = .rejected (.entry k why) → bytes = [BitVec.ofNat 8 k.val, reasonCode why])
    (habandoned : r = .rejected .abandoned → bytes = [0xFF, 0x07]) : detailBytes r = bytes := by
  cases r with
  | rejected why =>
    cases why with
    | entry k r => exact (hentry k r rfl).symm
    | abandoned => exact (habandoned rfl).symm
  | _ => exact (hplain nofun).symm

theorem attentionByte_eq (s : State) : attentionByte s =
    BitVec.ofNat 8 ((decide (s.log.records ≠ [] ∨ s.log.dropped ≠ 0)).toNat +
      2 * (decide ((s.mgmt .A).firstError ≠ none ∨ (s.mgmt .B).firstError ≠ none)).toNat +
      4 * (decide (∃ d, (s.seg d).state = .fault)).toNat + 16 * s.mask.log.toNat + 32 * s.mask.check.toNat +
      64 * s.mask.fault.toNat) := by
  have hlog : logActive s = decide (s.log.records ≠ [] ∨ s.log.dropped ≠ 0) := by
    rw [Bool.eq_iff_iff, logActive_iff, decide_eq_true_eq]
  have hcheck : checkActive s = decide ((s.mgmt .A).firstError ≠ none ∨ (s.mgmt .B).firstError ≠ none) := by
    rw [Bool.eq_iff_iff, checkActive, Bool.or_eq_true, Option.isSome_iff_ne_none, Option.isSome_iff_ne_none, decide_eq_true_eq]
  have hfault : faultActive s = decide (∃ d, (s.seg d).state = .fault) := by
    rw [Bool.eq_iff_iff, faultActive_iff, decide_eq_true_eq]
  rw [attentionByte, attentionFlags_eq, hlog, hcheck, hfault]

theorem waitingByte_eq (g : Segment) : waitingByte g =
    BitVec.ofNat 8 ((decide (∃ w ∈ g.waiters, w.port = .A)).toNat + 2 * (decide (∃ w ∈ g.waiters, w.port = .B)).toNat) := by
  have hany : ∀ p : Port, g.waiters.any (fun w => w.port = p) = decide (∃ w ∈ g.waiters, w.port = p) := fun p => by
    rw [Bool.eq_iff_iff, List.any_eq_true, decide_eq_true_eq]
    simp only [decide_eq_true_eq]
  rw [waitingByte, waitingFlags_eq, hany, hany]

theorem cursorBytes_of {e : Entry} {s : State} {bytes : List Byte}
    (habsent : e.width = .zero ∨ cursorOf s.cursors e.target = none → bytes = [0, 0, 0])
    (hpresent : e.width ≠ .zero → ∀ v, cursorOf s.cursors e.target = some v → bytes = 1 :: wordBytes v) :
    cursorBytes (shownCursor e s) = bytes := by
  have hshown : e.width ≠ .zero → shownCursor e s = cursorOf s.cursors e.target := fun hw => by
    unfold shownCursor
    split
    case h_1 h => exact absurd h hw
    case h_2 => rfl
  by_cases hw : e.width = .zero
  · have hnone : shownCursor e s = none := by simp only [shownCursor, hw]
    rw [hnone, habsent (.inl hw)]
    rfl
  · rw [hshown hw]
    cases hv : cursorOf s.cursors e.target with
    | none => exact (habsent (.inr hv)).symm
    | some v => exact (hpresent hw v hv).symm

theorem configBytes_eq (c : SegConfig) : configBytes c = [speedCode c.speed, BitVec.ofNat 8 c.stall, BitVec.ofNat 8 c.enable.toNat] := by
  rw [configBytes, flagBit_zero]

/-! ## The views (O10) -/

theorem statusView_length (p : Port) (s : State) : (statusView p s).length = 26 := by
  simp [statusView, wordBytes, countBytes, stagingBytes_length, outcomeBytes_length, resultBytes, detailBytes_length]

theorem activeEntryView_length (n : Fin 32) (s : State) : (activeEntryView n s).length = 20 := by
  simp [activeEntryView, imageBytes_length, cursorBytes_length, countBytes, wordBytes]

theorem logView_length (s : State) : (logView s).length = 3 + 12 * s.log.records.length := by
  have hrecords : ∀ l : List Violation, (l.map violationBytes).flatten.length = 12 * l.length := by
    intro l
    induction l with
    | nil => rfl
    | cons v rest ih =>
      rw [List.map_cons, List.flatten_cons, List.length_append, violationBytes_length, ih, List.length_cons]
      omega
  rw [logView, List.length_append, hrecords]
  rfl

theorem firstErrorView_length (p : Port) (s : State) : (firstErrorView p s).length = 6 := by
  unfold firstErrorView
  split <;> rfl

theorem segmentView_unpended {d : Seg} {s : State} (h : (s.seg d).pendingConfig = none) : segmentView d s =
    segStateCode (s.seg d).state :: configBytes (s.seg d).config ++ [0, 0, 0, 0] ++
      [portCode (s.seg d).holder, waitingByte (s.seg d), portCode (leaseHolder (s.seg d))] ++
      countBytes (remainingShown (s.seg d) s) := by
  simp only [segmentView, h]
  rfl

theorem segmentView_pended {d : Seg} {s : State} {c : SegConfig} (h : (s.seg d).pendingConfig = some c) : segmentView d s =
    segStateCode (s.seg d).state :: configBytes (s.seg d).config ++ 1 :: configBytes c ++
      [portCode (s.seg d).holder, waitingByte (s.seg d), portCode (leaseHolder (s.seg d))] ++
      countBytes (remainingShown (s.seg d) s) := by
  simp only [segmentView, h]
  rfl

theorem segmentView_length (d : Seg) (s : State) : (segmentView d s).length = 13 := by
  cases h : (s.seg d).pendingConfig with
  | none => rw [segmentView_unpended h]; rfl
  | some c => rw [segmentView_pended h]; rfl

theorem remainingShown_of {g : Segment} {s : State} {left : Nat} (hnone : g.lease = none → left = 0)
    (hsome : ∀ l, g.lease = some l → left = max 1 (l.expiry - s.now)) : remainingShown g s = left := by
  unfold remainingShown
  split
  case h_1 h => exact (hnone h).symm
  case h_2 l h => exact (hsome l h).symm

theorem viewBytes_status {p : Port} {s : State} (h : (s.mgmt p).selection.view = .status) : viewBytes p s = statusView p s := by
  simp only [viewBytes, h]

theorem viewBytes_activeEntry {p : Port} {s : State} {n : Fin 32} (h : (s.mgmt p).selection.view = .activeEntry n) :
    viewBytes p s = activeEntryView n s := by
  simp only [viewBytes, h]

theorem viewBytes_stagedEntry {p : Port} {s : State} {n : Fin 32} (h : (s.mgmt p).selection.view = .stagedEntry n) :
    viewBytes p s = stagedEntryView n s := by
  simp only [viewBytes, h]

theorem viewBytes_log {p : Port} {s : State} (h : (s.mgmt p).selection.view = .log) : viewBytes p s = logView s := by
  simp only [viewBytes, h]

theorem viewBytes_firstError {p : Port} {s : State} (h : (s.mgmt p).selection.view = .firstError) :
    viewBytes p s = firstErrorView p s := by
  simp only [viewBytes, h]

theorem viewBytes_segment {p : Port} {s : State} {d : Seg} (h : (s.mgmt p).selection.view = .segment d) :
    viewBytes p s = segmentView d s := by
  simp only [viewBytes, h]

/-- Settles O10: the snapshot by what the port retains, and the six views piece by piece. -/
theorem managementReadSnapshot : Obligations.ManagementReadSnapshot := by
  refine ⟨fun p b sda s h haddr hdir => ⟨fun hret => ?_, fun d hret => ?_⟩, wordBytes_eq, rfl, rfl, rfl, rfl, rfl, rfl,
    fun _ => rfl, rfl, rfl, ?_⟩
  · rw [exec_addressByte h, hdir, resolve_mgmt_read sda haddr, settle_none _ _ _ hret, addressOutcome_snapshot_eq]
  · rw [exec_addressByte h, hdir, resolve_mgmt_read sda haddr, settle_some _ _ _ hret]
  · intro p s n8 count config image m
    have himage : ∀ e, imageBytes (entryImage e) = image e := imageBytes_entryImage
    refine ⟨fun hv => ?_, fun n hv => ?_, fun n hv => ?_, fun hv => ?_, fun hv => ?_, fun d hv => ?_⟩
    · rw [viewBytes_status hv]
      refine ⟨statusView_length p s, fun staging outcome detail hs1 hs2 hs3 ho1 ho2 ho3 ho4 hd1 hd2 hd3 => ?_⟩
      have hdetail : detailBytes (s.mgmt p).result.result = detail := detailBytes_of hd1 hd2 hd3
      rw [← stagingBytes_of hs1 hs2 hs3, ← outcomeBytes_of ho1 ho2 ho3 ho4, ← hdetail]
      simp only [statusView, checkByte, checkFlags_eq, attentionByte_eq, segmentByte_eq, mgmtAddrByte_eq, resultBytes]
      simp [m, n8, count, countBytes]
    · rw [viewBytes_activeEntry hv]
      refine ⟨activeEntryView_length n s, fun cursor => ?_⟩
      intro i habsent hpresent
      rw [← cursorBytes_of habsent hpresent, ← himage]
      rfl
    · rw [viewBytes_stagedEntry hv]
      exact ⟨imageBytes_length _, himage _⟩
    · rw [viewBytes_log hv]
      refine ⟨logView_length s, ?_⟩
      rw [← funext violationBytes_eq]
      rfl
    · rw [viewBytes_firstError hv]
      refine ⟨firstErrorView_length p s, fun hnone => ?_, fun e he => ?_⟩
      · have hnone : (s.mgmt p).firstError = none := hnone
        simp only [firstErrorView, hnone]
        rfl
      · have he : (s.mgmt p).firstError = some e := he
        simp only [firstErrorView, he]
        rfl
    · rw [viewBytes_segment hv]
      refine ⟨segmentView_length d s, fun pended left hpnone hpsome hlnone hlsome => ?_⟩
      rw [← remainingShown_of hlnone hlsome]
      cases hc : (s.seg d).pendingConfig with
      | none => rw [hpnone hc, segmentView_unpended hc, configBytes_eq, waitingByte_eq]; rfl
      | some c => rw [hpsome c hc, segmentView_pended hc, configBytes_eq, configBytes_eq, waitingByte_eq]; rfl

end Sys2Proof.Machine
end

section
/-! PROOFS. SOFT RESET (R68, R69, R107, R120, R147, R149, R169, R182). -/

namespace Sys2Proof.Machine

/-! ## The access of the other port -/

@[simp] theorem closeHeld_fe (q : Port) (tail : Option Transfer) (s : State) (r : Port) : (closeHeld q tail s).fe r = s.fe r := by
  unfold closeHeld
  split <;> rfl

theorem closeHeld_eq (q : Port) (tail : Option Transfer) (s : State) : ∃ gs, closeHeld q tail s = { s with segments := gs } := by
  unfold closeHeld
  split
  · exact ⟨s.segments, rfl⟩
  · exact ⟨_, rfl⟩

/-- A context whose access SOFT RESET aborts (R68). -/
def Context.inTraffic (c : Context) : Prop :=
  c.state ∈ [CtxState.waiting, .opening, .writeIndex, .writeData, .readData, .readEnd] ∨ (c.state = .matching ∧ c.access ≠ none)

/-- The NAK that the target of an aborted read still gets, for the byte being delivered (R69). -/
def State.abortTail (s : State) (q : Port) : Option Transfer :=
  if (s.ctx q).state = .readData ∧ delivering q s = true then some .nak else none

theorem abortTail_of_ne {s : State} {q : Port} (h : (s.ctx q).state ≠ .readData) : s.abortTail q = none :=
  if_neg fun k => h k.1

theorem abortAddress_eq (q : Port) (s : State) : abortAddress q s =
    ((closeHeld q none s).setFe q ((s.fe q).answering .nak)).setCtx q ((s.ctx q).aborted .refusing) := by
  rw [abortAddress, answer_eq, closeHeld_fe]

theorem abortWrite_eq {q : Port} {s : State} (h : (s.ctx q).retained = none) : abortWrite q s =
    ((closeHeld q none s).setFe q (if (s.fe q).hold then (s.fe q).answering .nak else (s.fe q).silent)).setCtx q
      ((s.ctx q).aborted .refusing) := by
  simp only [abortWrite, h, Option.isSome_none, Bool.false_eq_true, if_false]
  split
  · rw [answer_eq, closeHeld_fe]
  · rw [releaseLines_eq, closeHeld_fe]

theorem abortWrite_retained {q : Port} {s : State} (h : (s.ctx q).retained ≠ none) :
    abortWrite q s = (closeHeld q none s).setCtx q .idle := by
  rw [abortWrite, if_pos (Option.isSome_iff_ne_none.mpr h), toIdle_eq]

theorem abortReadEnd_eq {q : Port} {s : State} (h : (s.ctx q).retained = none) :
    abortReadEnd q s = (closeHeld q none s).setCtx q ((s.ctx q).aborted .refusing) := by
  simp only [abortReadEnd, h, Option.isSome_none, Bool.false_eq_true, if_false]

theorem abortReadEnd_retained {q : Port} {s : State} (h : (s.ctx q).retained ≠ none) :
    abortReadEnd q s = (closeHeld q none s).setCtx q .idle := by
  rw [abortReadEnd, if_pos (Option.isSome_iff_ne_none.mpr h), toIdle_eq]

theorem abortRead_eq {q : Port} {s : State} (h : (s.ctx q).state = .readData) : abortRead q s =
    ((closeHeld q (s.abortTail q) s).setFe q (if delivering q s then s.fe q else (s.fe q).sending 0xFF#8)).setCtx q
      ((s.ctx q).aborted .filler) := by
  unfold abortRead State.abortTail
  by_cases hd : delivering q s = true
  · rw [if_pos hd, if_pos hd, if_pos ⟨h, hd⟩, ← closeHeld_fe q (some .nak) s q, State.setFe_self]
  · rw [if_neg hd, if_neg hd, if_neg fun k => hd k.2, deliver_eq, closeHeld_fe]

/-- SOFT RESET leaves the context as it is (R68). -/
theorem abortContext_quiet {q : Port} {s : State}
    (h : (s.ctx q).state ∈ [CtxState.idle, .unaddressed, .filler, .refusing, .mgmtWrite] ∨
      ((s.ctx q).state = .matching ∧ (s.ctx q).access = none)) : abortContext q s = s := by
  rcases h with h | ⟨hst, hacc⟩
  · simp only [List.mem_cons, List.not_mem_nil, or_false] at h
    rcases h with h | h | h | h | h <;> simp only [abortContext, h]
  · simp only [abortContext, hst, abortMatch, hacc, Option.isNone_none, if_true]

theorem abortContext_mgmtRead {q : Port} {s : State} (h : (s.ctx q).state = .mgmtRead) : abortContext q s = unstoreRead q s := by
  simp only [abortContext, h]

theorem abortContext_address {q : Port} {s : State}
    (h : (s.ctx q).state ∈ [CtxState.waiting, .opening] ∨ ((s.ctx q).state = .matching ∧ (s.ctx q).access ≠ none)) :
    abortContext q s = abortAddress q s := by
  rcases h with h | ⟨hst, hacc⟩
  · simp only [List.mem_cons, List.not_mem_nil, or_false] at h
    rcases h with h | h <;> simp only [abortContext, h]
  · simp only [abortContext, hst, abortMatch, Option.isNone_iff_eq_none, if_neg hacc]

theorem abortContext_write {q : Port} {s : State} (h : (s.ctx q).state ∈ [CtxState.writeIndex, .writeData]) :
    abortContext q s = abortWrite q s := by
  simp only [List.mem_cons, List.not_mem_nil, or_false] at h
  rcases h with h | h <;> simp only [abortContext, h]

theorem abortContext_readData {q : Port} {s : State} (h : (s.ctx q).state = .readData) : abortContext q s = abortRead q s := by
  simp only [abortContext, h]

theorem abortContext_readEnd {q : Port} {s : State} (h : (s.ctx q).state = .readEnd) : abortContext q s = abortReadEnd q s := by
  simp only [abortContext, h]

/-- An aborted access closes what it has; else no segment changes (R107). -/
theorem abortContext_seg_traffic {q : Port} {s : State} (h : (s.ctx q).inTraffic) (d : Seg) :
    (abortContext q s).seg d = (closeHeld q (s.abortTail q) s).seg d := by
  have hwrite : (abortWrite q s).seg d = (closeHeld q none s).seg d := by
    by_cases hret : (s.ctx q).retained = none
    · rw [abortWrite_eq hret]; rfl
    · rw [abortWrite_retained hret]; rfl
  have hread : (abortReadEnd q s).seg d = (closeHeld q none s).seg d := by
    by_cases hret : (s.ctx q).retained = none
    · rw [abortReadEnd_eq hret]; rfl
    · rw [abortReadEnd_retained hret]; rfl
  rcases h with h | ⟨hst, hacc⟩
  · simp only [List.mem_cons, List.not_mem_nil, or_false] at h
    rcases h with h | h | h | h | h | h
    · rw [abortTail_of_ne (by simp [h]), abortContext_address (by simp [h]), abortAddress_eq]; rfl
    · rw [abortTail_of_ne (by simp [h]), abortContext_address (by simp [h]), abortAddress_eq]; rfl
    · rw [abortTail_of_ne (by simp [h]), abortContext_write (by simp [h]), hwrite]
    · rw [abortTail_of_ne (by simp [h]), abortContext_write (by simp [h]), hwrite]
    · rw [abortContext_readData h, abortRead_eq h]; rfl
    · rw [abortTail_of_ne (by simp [h]), abortContext_readEnd h, hread]
  · rw [abortTail_of_ne (by simp [hst]), abortContext_address (.inr ⟨hst, hacc⟩), abortAddress_eq]; rfl

theorem abortContext_seg_quiet {q : Port} {s : State} (h : ¬ (s.ctx q).inTraffic) (d : Seg) : (abortContext q s).seg d = s.seg d := by
  unfold Context.inTraffic at h
  cases hst : (s.ctx q).state with
  | idle | unaddressed | filler | refusing | mgmtWrite => rw [abortContext_quiet (by simp [hst])]
  | mgmtRead => rw [abortContext_mgmtRead hst]; rfl
  | matching =>
    have hacc : (s.ctx q).access = none := by
      by_contra hacc
      exact h (.inr ⟨hst, hacc⟩)
    rw [abortContext_quiet (.inr ⟨hst, hacc⟩)]
  | waiting | opening | writeIndex | writeData | readData | readEnd => exact absurd (.inl (by simp [hst])) h

/-- Port `q`'s management unit after the abort: its read goes on, but its advances are no longer stored (R68, R152). -/
def State.unstored (s : State) (q : Port) : MgmtUnit :=
  { s.mgmt q with
    reading := if (s.ctx q).state = .mgmtRead then (s.mgmt q).reading.map (fun r => { r with stored := false }) else (s.mgmt q).reading }

theorem unstored_of_ne {s : State} {q : Port} (h : (s.ctx q).state ≠ .mgmtRead) : s.unstored q = s.mgmt q := by
  simp only [State.unstored, if_neg h]

/-- What SOFT RESET can reach of the other port's traffic: the segments, and that port's own front end, context and management read. -/
def State.AbortsTo (s : State) (q : Port) (u : State) : Prop :=
  ∃ gs f c, u = (({ s with segments := gs }.setFe q f).setCtx q c).setMgmt q (s.unstored q)

theorem State.AbortsTo.refl {s : State} {q : Port} (h : (s.ctx q).state ≠ .mgmtRead) : s.AbortsTo q s :=
  ⟨s.segments, s.fe q, s.ctx q, by rw [unstored_of_ne h]; cases q <;> rfl⟩

theorem State.AbortsTo.closeHeld {s : State} {q : Port} (tail : Option Transfer) (f : FrontEnd) (c : Context)
    (h : (s.ctx q).state ≠ .mgmtRead) : s.AbortsTo q (((Machine.closeHeld q tail s).setFe q f).setCtx q c) := by
  obtain ⟨gs, hgs⟩ := closeHeld_eq q tail s
  exact ⟨gs, f, c, by rw [hgs, unstored_of_ne h]; cases q <;> rfl⟩

theorem State.AbortsTo.closeHeld_kept {s : State} {q : Port} (tail : Option Transfer) (c : Context)
    (h : (s.ctx q).state ≠ .mgmtRead) : s.AbortsTo q ((Machine.closeHeld q tail s).setCtx q c) := by
  have hfe := State.setFe_self (Machine.closeHeld q tail s) q
  rw [← hfe]
  exact .closeHeld tail _ c h

theorem abortContext_reaches (q : Port) (s : State) : s.AbortsTo q (abortContext q s) := by
  have hwrite (h : (s.ctx q).state ≠ .mgmtRead) : s.AbortsTo q (abortWrite q s) := by
    by_cases hret : (s.ctx q).retained = none
    · rw [abortWrite_eq hret]; exact .closeHeld _ _ _ h
    · rw [abortWrite_retained hret]; exact .closeHeld_kept _ _ h
  cases hst : (s.ctx q).state with
  | idle | unaddressed | filler | refusing | mgmtWrite =>
    rw [abortContext_quiet (by simp [hst])]
    exact .refl (by simp [hst])
  | matching =>
    by_cases hacc : (s.ctx q).access = none
    · rw [abortContext_quiet (.inr ⟨hst, hacc⟩)]
      exact .refl (by simp [hst])
    · rw [abortContext_address (.inr ⟨hst, hacc⟩), abortAddress_eq]
      exact .closeHeld _ _ _ (by simp [hst])
  | waiting | opening =>
    rw [abortContext_address (by simp [hst]), abortAddress_eq]
    exact .closeHeld _ _ _ (by simp [hst])
  | writeIndex | writeData =>
    rw [abortContext_write (by simp [hst])]
    exact hwrite (by simp [hst])
  | readData =>
    rw [abortContext_readData hst, abortRead_eq hst]
    exact .closeHeld _ _ _ (by simp [hst])
  | readEnd =>
    rw [abortContext_readEnd hst]
    by_cases hret : (s.ctx q).retained = none
    · rw [abortReadEnd_eq hret]; exact .closeHeld_kept _ _ (by simp [hst])
    · rw [abortReadEnd_retained hret]; exact .closeHeld_kept _ _ (by simp [hst])
  | mgmtRead =>
    rw [abortContext_mgmtRead hst]
    exact ⟨s.segments, s.fe q, s.ctx q, by simp only [State.unstored, if_pos hst]; cases q <;> rfl⟩

/-! ## The arbiters, the staging unit and the stores -/

/-- A segment whose waiters, requests and lease SOFT RESET has removed, with the answer of an aborted access no longer awaited (R68, R120). -/
def Segment.cancelled (g : Segment) : Segment :=
  { g with waiters := [], requests := [], lease := none, resume := g.resume.filter (fun r => !r.hasAccess) }

theorem resetArbiters_eq (s : State) :
    (List.finRange 4).foldl resetArbiter s = { s with segments := s.segments.map Segment.cancelled } := by
  have hseg : ∀ (u : State) (d : Seg), resetArbiter u d = u.setSeg d (u.seg d).cancelled := fun _ _ => rfl
  have hlist : List.finRange 4 = [0, 1, 2, 3] := by decide
  simp only [hlist, List.foldl_cons, List.foldl_nil, hseg, State.setSeg, State.seg]
  congr 1
  ext1 i hi
  interval_cases i <;> simp

/-- The staging unit after a SOFT RESET (R182). -/
def Staging.softReset (g : Staging) (active : Table) : Staging :=
  match g.state with
  | .free => g
  | .owned _ => ⟨active, .free, .stopped, g.outcome⟩
  | .committing _ => ⟨active, .free, .stopped, .abandoned⟩

/-- The result that a SOFT RESET of the other port leaves for port `q` (R182). -/
def State.abandonedResult (s : State) (q : Port) : ResultRecord :=
  if s.staging.state = .committing q then ⟨0x44#8, .rejected .abandoned, (s.mgmt q).result.serial⟩ else (s.mgmt q).result

theorem softResetStaging_eq (p : Port) (s : State) : softResetStaging p s =
    (s.setStaging (s.staging.softReset s.active)).setMgmt (other p)
      { s.mgmt (other p) with result := s.abandonedResult (other p) } := by
  unfold State.abandonedResult
  cases hst : s.staging.state with
  | free =>
    simp only [softResetStaging, Staging.softReset, hst, reduceCtorEq, if_false, State.setStaging_self]
    exact (State.setMgmt_self _ _).symm
  | owned x =>
    simp only [softResetStaging, Staging.softReset, hst, reduceCtorEq, if_false]
    exact (State.setMgmt_self _ _).symm
  | committing x =>
    by_cases hx : x = p
    · have hne : StagingState.committing x ≠ .committing (other p) := fun h => other_ne p (by injection h with h; rw [← h, hx])
      simp only [softResetStaging, Staging.softReset, hst, if_pos hx, if_neg hne]
      exact (State.setMgmt_self _ _).symm
    · obtain rfl : x = other p := eq_other_of_ne p x hx
      simp only [softResetStaging, Staging.softReset, hst, if_neg hx, if_true]
      rfl

/-- A management unit after a SOFT RESET: check failures cleared, STATUS selected (R147, R149). -/
def MgmtUnit.softReset (m : MgmtUnit) : MgmtUnit :=
  { m with firstError := none, failures := 0, guard := .normal, selection := ⟨.status, 0⟩ }

theorem resetUnits_eq (p : Port) (s : State) : resetUnit (resetUnit s .A) .B =
    (s.setMgmt p (s.mgmt p).softReset).setMgmt (other p) (s.mgmt (other p)).softReset := by
  cases p <;> rfl

/-- What SOFT RESET from port `p` does once the other port's traffic is aborted. -/
def State.wiped (u : State) (p : Port) : State :=
  (({ u with
      segments := u.segments.map Segment.cancelled
      cursors := u.cursors.map (fun r => { r with cursor := none })
      counters := Vector.replicate 32 ⟨0, 0⟩
      log := { u.log with records := [], dropped := 0 }
      staging := u.staging.softReset u.active } : State).setMgmt p (u.mgmt p).softReset).setMgmt (other p)
    { (u.mgmt (other p)).softReset with result := u.abandonedResult (other p) }

/-- The state after the command, with its result record. -/
def State.wipedBy (u : State) (p : Port) : State :=
  (u.wiped p).setMgmt p { (u.mgmt p).softReset with result := ⟨0x5A#8, .done, (u.mgmt p).result.serial + 1⟩ }

theorem runSoftReset_eq (p : Port) (s : State) : runSoftReset p s = ((abortContext (other p) s).wiped p, .done) := by
  simp only [runSoftReset, resetArbiters_eq, softResetStaging_eq, resetUnits_eq p, clearCursors, if_true]
  generalize abortContext (other p) s = u
  simp only [State.wiped, State.setMgmt, State.setStaging, State.setCursors, State.setCounters, State.setLog, State.mgmt]
  cases p <;> rfl

theorem softReset_state_ne_owned (g : Staging) (active : Table) (p : Port) : (g.softReset active).state ≠ .owned p := by
  unfold Staging.softReset
  cases h : g.state with
  | free => simp [h]
  | owned | committing => simp

theorem softReset_reports {p : Port} {s : State} (h : s.ready p) :
    exec (.softReset p) s = .next ((abortContext (other p) s).wipedBy p) := by
  refine (command_reports (c := .softReset) (sda := .high) h (runSoftReset_eq p s)).trans (congrArg _ ?_)
  refine (if_neg (softReset_state_ne_owned _ _ p)).trans ?_
  generalize abortContext (other p) s = u
  cases p <;> rfl

theorem wipedBy_seg (u : State) (p : Port) (d : Seg) : (u.wipedBy p).seg d = (u.seg d).cancelled := by
  have hseg : (u.wipedBy p).seg d = (u.segments.map Segment.cancelled)[d] := rfl
  rw [hseg, Fin.getElem_fin, Vector.getElem_map]
  rfl

theorem wipedBy_ctx (u : State) (p r : Port) : (u.wipedBy p).ctx r = u.ctx r := rfl

theorem wipedBy_fe (u : State) (p r : Port) : (u.wipedBy p).fe r = u.fe r := rfl

theorem wipedBy_mgmt (u : State) (p : Port) : (u.wipedBy p).mgmt p =
    { (u.mgmt p).softReset with result := ⟨0x5A#8, .done, (u.mgmt p).result.serial + 1⟩ } := by
  cases p <;> rfl

theorem wipedBy_mgmt_other (u : State) (p : Port) : (u.wipedBy p).mgmt (other p) =
    { (u.mgmt (other p)).softReset with result := u.abandonedResult (other p) } := by
  cases p <;> rfl

theorem wipedBy_staging (u : State) (p : Port) : (u.wipedBy p).staging = u.staging.softReset u.active := rfl

theorem wipedBy_counters (u : State) (p : Port) (n : Fin 32) : (u.wipedBy p).counters[n] = ⟨0, 0⟩ := by
  have hcounters : (u.wipedBy p).counters = Vector.replicate 32 ⟨0, 0⟩ := rfl
  rw [hcounters, Fin.getElem_fin, Vector.getElem_replicate]

/-! ## The context and the front end of the other port -/

theorem abortContext_leaves {q : Port} {s : State}
    (h : (s.ctx q).state ∈ [CtxState.idle, .unaddressed, .filler, .refusing, .mgmtWrite, .mgmtRead] ∨
      ((s.ctx q).state = .matching ∧ (s.ctx q).access = none)) :
    (abortContext q s).ctx q = s.ctx q ∧ (abortContext q s).fe q = s.fe q := by
  by_cases hst : (s.ctx q).state = .mgmtRead
  · rw [abortContext_mgmtRead hst]
    exact ⟨rfl, rfl⟩
  · rw [abortContext_quiet (h.imp_left fun h => by simp_all)]
    exact ⟨rfl, rfl⟩

theorem abortContext_address_port {q : Port} {s : State}
    (h : (s.ctx q).state ∈ [CtxState.waiting, .opening] ∨ ((s.ctx q).state = .matching ∧ (s.ctx q).access ≠ none)) :
    (abortContext q s).ctx q = (s.ctx q).aborted .refusing ∧ (abortContext q s).fe q = (s.fe q).answering .nak := by
  rw [abortContext_address h, abortAddress_eq]
  simp

theorem abortContext_write_port {q : Port} {s : State} (h : (s.ctx q).state ∈ [CtxState.writeIndex, .writeData])
    (hret : (s.ctx q).retained = none) :
    (abortContext q s).ctx q = (s.ctx q).aborted .refusing ∧
      (abortContext q s).fe q = if (s.fe q).hold then (s.fe q).answering .nak else (s.fe q).silent := by
  rw [abortContext_write h, abortWrite_eq hret]
  simp

theorem abortContext_readData_port {q : Port} {s : State} (h : (s.ctx q).state = .readData) :
    (abortContext q s).ctx q = (s.ctx q).aborted .filler ∧
      (abortContext q s).fe q = if delivering q s then s.fe q else (s.fe q).sending 0xFF#8 := by
  rw [abortContext_readData h, abortRead_eq h]
  simp

theorem abortContext_readEnd_port {q : Port} {s : State} (h : (s.ctx q).state = .readEnd) (hret : (s.ctx q).retained = none) :
    (abortContext q s).ctx q = (s.ctx q).aborted .refusing ∧ (abortContext q s).fe q = s.fe q := by
  rw [abortContext_readEnd h, abortReadEnd_eq hret]
  simp

theorem abortContext_retained_port {q : Port} {s : State}
    (h : (s.ctx q).state ∈ [CtxState.writeIndex, .writeData, .readEnd]) (hret : (s.ctx q).retained ≠ none) :
    (abortContext q s).ctx q = .idle ∧ (abortContext q s).fe q = s.fe q := by
  by_cases hst : (s.ctx q).state = .readEnd
  · rw [abortContext_readEnd hst, abortReadEnd_retained hret]
    simp
  · rw [abortContext_write (by simp_all), abortWrite_retained hret]
    simp

/-! ## The segments -/

/-- An aborted access has the segment that its record holds, or the one retained while there is no record (R63). -/
theorem segment_eq_some_iff (c : Context) (d : Seg) :
    c.segment? = some d ↔ (∃ a ∈ c.access, a.held = some d) ∨ (c.access = none ∧ c.retained = some d) := by
  unfold Context.segment?
  cases c.access <;> simp

theorem cancelled_eq (g : Segment) : g.cancelled =
    { g with waiters := [], requests := [], lease := none,
             resume := g.resume.filter (fun r => r.outcome ∈ [.unanswered, .frame, .snapshot]) } := by
  have hoff : ∀ r : Resume, (!r.hasAccess) = decide (r.outcome ∈ [.unanswered, .frame, .snapshot]) := by
    intro r
    unfold Resume.hasAccess
    cases r.outcome <;> simp
  simp only [Segment.cancelled, hoff]

theorem abortContext_seg_has {q : Port} {s : State} {d : Seg} (h : (s.ctx q).inTraffic) (hd : (s.ctx q).segment? = some d) :
    (abortContext q s).seg d = (s.seg d).closed (s.abortTail q) := by
  rw [abortContext_seg_traffic h, closeHeld_seg, if_pos hd]

theorem abortContext_seg_not {q : Port} {s : State} {d : Seg} (h : ¬ ((s.ctx q).inTraffic ∧ (s.ctx q).segment? = some d)) :
    (abortContext q s).seg d = s.seg d := by
  by_cases ht : (s.ctx q).inTraffic
  · rw [abortContext_seg_traffic ht, closeHeld_seg, if_neg fun hd => h ⟨ht, hd⟩]
  · exact abortContext_seg_quiet ht d

/-! ## The command (O48) -/

theorem softReset_free {g : Staging} (active : Table) (h : g.state = .free) : g.softReset active = g := by
  simp only [Staging.softReset, h]

theorem softReset_owned {g : Staging} {x : Port} (active : Table) (h : g.state = .owned x) :
    g.softReset active = ⟨active, .free, .stopped, g.outcome⟩ := by
  simp only [Staging.softReset, h]

theorem softReset_committing {g : Staging} {x : Port} (active : Table) (h : g.state = .committing x) :
    g.softReset active = ⟨active, .free, .stopped, .abandoned⟩ := by
  simp only [Staging.softReset, h]

/-- Settles O48: what the abort does to the other port and its segments, and what is cleared after it. -/
theorem softReset : Obligations.SoftReset := by
  intro p q s h hq
  subst hq
  intro c aborted traffic cleared has
  refine ⟨_, softReset_reports h, ?_⟩
  obtain ⟨gs, f, c', hu⟩ := abortContext_reaches (other p) s
  have hmgmt : (abortContext (other p) s).mgmt p = s.mgmt p := by rw [hu]; cases p <;> rfl
  have hunit : (abortContext (other p) s).mgmt (other p) = s.unstored (other p) := by rw [hu]; cases p <;> rfl
  have hstaging : (abortContext (other p) s).staging = s.staging := by rw [hu]; rfl
  have hactive : (abortContext (other p) s).active = s.active := by rw [hu]; rfl
  have hresult : (abortContext (other p) s).abandonedResult (other p) = s.abandonedResult (other p) := by
    rw [State.abandonedResult, hstaging, hunit]; rfl
  have hhas : ∀ d, has d ↔ (s.ctx (other p)).segment? = some d := fun d => (segment_eq_some_iff _ d).symm
  have hcleared : ∀ g, cleared g = g.cancelled := fun g => (cancelled_eq g).symm
  rw [wipedBy_mgmt, wipedBy_mgmt_other, wipedBy_staging, hmgmt, hunit, hresult, hstaging, hactive, wipedBy_ctx, wipedBy_fe]
  refine ⟨fun hc => abortContext_leaves hc, fun hc => abortContext_address_port hc, fun hc hret => abortContext_write_port hc hret,
    fun hc => abortContext_readData_port hc, fun hc hret => abortContext_readEnd_port hc hret,
    fun hc hret => abortContext_retained_port hc hret, fun d ht hd => ?_, fun d hnot => ?_, rfl, rfl,
    fun hst => softReset_free _ hst, fun x hst => softReset_owned _ hst, fun x hst => softReset_committing _ hst, ?_,
    wipedBy_counters _ p, ?_, ?_, ?_, ?_, ?_, ?_, ?ctx, ?fe, ?running, ?_, ?_, ?_⟩
  · rw [wipedBy_seg, hcleared, abortContext_seg_has ht ((hhas d).mp hd)]
    rfl
  · rw [wipedBy_seg, hcleared, abortContext_seg_not fun k => hnot ⟨k.1, (hhas d).mpr k.2⟩]
  case ctx => rw [wipedBy_ctx, hu]; cases p <;> rfl
  case fe => rw [wipedBy_fe, hu]; cases p <;> rfl
  case running => rw [hu]; exact h.1.1
  all_goals rw [hu]; rfl

end Sys2Proof.Machine
end

section
/-! PROOFS. `StepKeepsHoldersConsistent` fails: nothing in it says that an access in OPENING has counted no byte (R42, R54, log 16). -/

namespace Sys2Proof.Machine

/-- An entry that serves port A at 0x10 and names the chip at 0x20 on segment 0. -/
def countedEntry : Entry := { Entry.cleared with enabled := true, ports := .onlyA, upAddr := 0x10#7, downAddr := 0x20#7 }

/-- A read that holds segment 0 and that has counted a byte already. -/
def countedAccess : Access := { Access.new 0 countedEntry .read with held := some 0, count := 1 }

/-- Port A is in OPENING with that read. The START and the translated address are in flight, and the target's ACK is the next event, its ninth bit not
yet clocked. -/
def countedOpening : State :=
  (((State.reset.setFe .A { FrontEnd.powerOn .high with bus := .active, role := .read, hold := true }).setCtx .A
      ⟨.opening, some countedAccess, none⟩).setSeg 0
    { Segment.powerOn with state := .held, holder := some .A, bus := .opened, transfer := some (.start false 0x20#7 .read) }).setPending
    [.targetAddressAnswer 0 .ack false]

-- The conjunction of a segment's invariants is long.
set_option synthInstance.maxSize 1024 in
/-- The ports and the segments agree: the invariant asks for an OPENING without index bytes, but leaves its count open. -/
theorem countedOpening_trafficWf : countedOpening.trafficWf := ⟨by decide +kernel, by decide +kernel, by decide +kernel⟩

/-- The target's ACK before its ninth bit is clocked: READ_DATA, neither a hold nor a byte in delivery. -/
theorem step_countedOpening :
    step countedOpening = .next (opened .A countedAccess 0 false (endTransfer 0 (countedOpening.setPending []))) :=
  rfl

theorem not_readWf_opened :
    (opened .A countedAccess 0 false (endTransfer 0 (countedOpening.setPending []))).readWf .A = false := by
  decide +kernel

/-- Refutes O56: port A is then in READ_DATA with a byte counted, but it neither delivers one nor holds its clock. The statement ranges over every state
that satisfies the invariant; an invariant that is kept would also say that the count of an access in OPENING is 0. -/
theorem not_stepKeepsHoldersConsistent : ¬ Obligations.StepKeepsHoldersConsistent := by
  intro hkeeps
  obtain ⟨⟨_, _, hread, _⟩, _, _⟩ := hkeeps _ _ countedOpening_trafficWf step_countedOpening
  rw [not_readWf_opened] at hread
  exact absurd hread Bool.false_ne_true

end Sys2Proof.Machine
end
